-- ==== Sys2Proof/Word.lean ====
section
/-!
DEFINITION. The word types of the PBX fountain core: bytes on the byte queues, 64-bit words on the
command, response and PLAN ports, 32-bit CSR values.
-/

namespace Sys2Proof

/-- One byte of a byte queue, of payload memory or of a slice's data (20_memory.md R84). -/
abbrev Byte := BitVec 8

/-- A whole 64-bit word: a command word (30_encoding.md R110), a plan token (R118) or a response
word (R120). -/
abbrev Word64 := BitVec 64

/-- The value of a control and status register (10_state.md R40). -/
abbrev Word32 := BitVec 32

/-- The least natural `q` with `q * b >= a`, for `b >= 1` (00_scope.md R9). -/
def ceilDiv (a b : Nat) : Nat := (a + (b - 1)) / b

end Sys2Proof
end

