-- ==== Sys2Proof/Config.lean ====
section
/-!
DEFINITION. What an implementation or the world outside the block fixes: the parameters of
00_scope.md R7 and the moves of the agents of R5 and R6. Both are OPEN in the spec, so both are
opaque constants here: no proof can see their values.
-/

namespace Sys2Proof

/-- The implementation parameters of 00_scope.md R7, under the spec's names. -/
structure Params where
  /-- NMAX, the largest segment count. -/
  nmax : Nat
  /-- SMAX, the largest slice size in bytes. -/
  smax : Nat
  /-- PMAX, the payload memory size in bytes. -/
  pmax : Nat
  /-- RMAX, the row-file capacity in rows. -/
  rmax : Nat
  /-- NPORTS, the number of host ports. -/
  nports : Nat
  /-- W, the physical word width of a packed buffer in bits; unobservable (40_packed_buffer.md R158). -/
  w : Nat
  /-- CMD_DEPTH, the capacity of each command queue. -/
  cmdDepth : Nat
  /-- DIN_DEPTH, the capacity of each input byte queue. -/
  dinDepth : Nat
  /-- DOUT_DEPTH, the capacity of each output byte queue. -/
  doutDepth : Nat
  /-- RESP_DEPTH, the capacity of each response queue. -/
  respDepth : Nat
  deriving DecidableEq, Repr, Inhabited

/-- The constraint column of 00_scope.md R7's table. -/
abbrev Params.Ok (p : Params) : Prop :=
  (1 ≤ p.nmax ∧ p.nmax ≤ 2 ^ 32 - 1) ∧ (1 ≤ p.smax ∧ p.smax ≤ 65535) ∧
  (1 ≤ p.pmax ∧ p.pmax ≤ 2 ^ 32 - 1) ∧ (1 ≤ p.rmax ∧ p.rmax ≤ 2 ^ 30) ∧
  (1 ≤ p.nports ∧ p.nports ≤ 2 ^ 32 - 1) ∧ (8 ≤ p.w ∧ p.w % 8 = 0) ∧
  1 ≤ p.cmdDepth ∧ 1 ≤ p.dinDepth ∧ 1 ≤ p.doutDepth ∧ 1 ≤ p.respDepth

/-- The parameters brought into the ranges of 00_scope.md R7; every parameter set that R7 allows is
`clamp` of some set (each value less one, `w` as its number of bytes less one). -/
def Params.clamp (p : Params) : Params where
  nmax := p.nmax % (2 ^ 32 - 1) + 1
  smax := p.smax % 65535 + 1
  pmax := p.pmax % (2 ^ 32 - 1) + 1
  rmax := p.rmax % 2 ^ 30 + 1
  nports := p.nports % (2 ^ 32 - 1) + 1
  w := 8 * (p.w + 1)
  cmdDepth := p.cmdDepth + 1
  dinDepth := p.dinDepth + 1
  doutDepth := p.doutDepth + 1
  respDepth := p.respDepth + 1

/-- One move of one agent of 00_scope.md R5. A sequence of moves is the schedule, the programs, the
input bytes, the random bytes and the plan tokens of a run (R6). -/
inductive Event where
  /-- The core takes its turn; when it is free to start a command, the arbiter offers port `p`
  (20_memory.md R87). -/
  | core (p : Nat)
  /-- Host port `p` pushes a command word (10_state.md R58). -/
  | pushCmd (p : Nat) (w : Word64)
  /-- Host port `p` pushes an input byte. -/
  | pushByte (p : Nat) (b : Byte)
  /-- Host port `p` pops an output byte. -/
  | popByte (p : Nat)
  /-- Host port `p` pops a response word. -/
  | popResp (p : Nat)
  /-- The random-bit source supplies the next byte of an outstanding request (20_memory.md R97). -/
  | rng (b : Byte)
  /-- The elimination collaborator supplies the token an outstanding PlanNext waits for (R98). -/
  | plan (t : Word64)
  /-- `rst_i` is asserted (70_reset_and_hazards.md R340). -/
  | rst
  deriving DecidableEq, Repr, Inhabited

/-- OPEN (00_scope.md R7): an arbitrary choice of the parameters, before `Params.clamp`
(DESIGN CHOICE, safe: notes/assumptions/1.md). -/
opaque Config.rawParams : Params

/-- The parameters of the block this model runs from reset: any that 00_scope.md R7 allows. -/
def Config.params : Params := Config.rawParams.clamp

/-- OPEN (00_scope.md R6): the `k`-th move of the agents once the scripted moves of a state
(`State.agenda`) are used up (DESIGN CHOICE, safe: notes/assumptions/2.md). -/
opaque Config.env : Nat → Event

end Sys2Proof
end

