-- ==== Sys2Proof/Syntax.lean ====
section
/-!
DEFINITION. The sixteen commands of PBX-CMD (30_encoding.md R112) and the four plan tokens
(R118): one constructor for each row of the opcode table. Operands are as in the assembler syntax
of R122: slice registers are indices 0 to 15, numbers are naturals (R115; DESIGN CHOICE, safe: notes/assumptions/23.md), the
MIX mask is its bits.
-/

namespace Sys2Proof

/-- The index of a slice register S0 to S15 (00_scope.md R8). -/
abbrev SIdx := Fin 16

/-- A command or a plan token. -/
inductive Instr where
  /-- `NOP` (45_control.md R290). -/
  | nop
  /-- `SYNC` (R291). -/
  | sync
  /-- `CSRR csr` (R292). -/
  | csrr (csr : Nat)
  /-- `PAY.LOAD len` (43_generator.md R220). -/
  | payLoad (len : Nat)
  /-- `GEN.INIT s, sys` (R221). -/
  | genInit (s : Nat) (sys : Bool)
  /-- `GEN.NEXT Sd` (R223). -/
  | genNext (rd : SIdx)
  /-- `SLC.CREATE Sd, s, n` (41_slice.md R170). -/
  | slcCreate (rd : SIdx) (s n : Nat)
  /-- `SLC.CLONE Sd, Ss` (R171). -/
  | slcClone (rd rs : SIdx)
  /-- `SLC.XOR Sd, Ss` (R172). -/
  | slcXor (rd rs : SIdx)
  /-- `SLC.OUT Ss` (R173). -/
  | slcOut (rs : SIdx)
  /-- `SPLIT Sd, i` (42_split_mix.md R201). -/
  | split (rd : SIdx) (i : Nat)
  /-- `MIX Sd, mask` (R203). -/
  | mix (rd : SIdx) (mask : BitVec 16)
  /-- `SOL.INIT s, tl` (44_solver.md R250). -/
  | solInit (s tl : Nat)
  /-- `SOL.REM Ss` (R251). -/
  | solRem (rs : SIdx)
  /-- `SOL.REMIN` (R252). -/
  | solRemin
  /-- `SOL.TRY` (R253). -/
  | solTry
  /-- The plan token `END` (R257). -/
  | planEnd
  /-- The plan token `SWAP a, b` (R254). -/
  | planSwap (a b : Nat)
  /-- The plan token `XOR a, b`, source row `a`, destination row `b` (R255). -/
  | planXor (a b : Nat)
  /-- The plan token `COMPLETE` (R256). -/
  | planComplete
  deriving DecidableEq, Repr

/-- Whether an instruction is a plan token: tokens travel on the PLAN port, commands on the command
queues (30_encoding.md R110, R118). -/
def Instr.isPlan : Instr → Bool
  | .planEnd | .planSwap _ _ | .planXor _ _ | .planComplete => true
  | .nop | .sync | .csrr _ | .payLoad _ | .genInit _ _ | .genNext _ | .slcCreate _ _ _ | .slcClone _ _
  | .slcXor _ _ | .slcOut _ | .split _ _ | .mix _ _ | .solInit _ _ | .solRem _ | .solRemin | .solTry => false

end Sys2Proof
end

