-- ==== Sys2Proof/Machine/State.lean ====
section
/-!
DEFINITION. The state of the PBX fountain core (10_state.md), its reset value
(70_reset_and_hazards.md R341), and the reasons a step of the model stops.
-/

namespace Sys2Proof.Machine

/-- A slice: the content of a slice register or of a solver row (00_scope.md, glossary). Each half is
a packed buffer held as its unpacked elements, which 40_packed_buffer.md R158 allows (DEDUCED, safe: notes/assumptions/6.md);
their lengths are `n` and `s` (DEDUCED, safe: notes/assumptions/7.md). -/
structure Slice where
  /-- The coefficient vector; element `i` is coefficient bit `i` (00_scope.md R10). -/
  coef : List Bool
  /-- The data bytes. -/
  data : List Byte
  deriving DecidableEq, Repr

/-- The field `n` of a slice: the logical length of its coefficient buffer (10_state.md R31,
40_packed_buffer.md R150). -/
def Slice.n (x : Slice) : Nat := x.coef.length

/-- The field `s` of a slice: the logical length of its data buffer. -/
def Slice.s (x : Slice) : Nat := x.data.length

/-- A slice register (10_state.md R31): `valid`, and the slice that gives `n`, `s`, `coef`, `data`. -/
structure SReg where
  /-- The register has been written since reset (R32). -/
  valid : Bool
  /-- Its content; unreadable while `valid` is false. -/
  slice : Slice
  deriving DecidableEq, Repr

/-- Payload memory (10_state.md R33): the bytes written since reset, addresses strictly rising. An
address that is not listed holds no value: the spec leaves its byte unspecified
(DESIGN CHOICE, safe: notes/assumptions/5.md). -/
abbrev Memory := List Host.Cell

/-- The generator state of 10_state.md R35. -/
structure Gen where
  /-- GEN_READY: a generator instance exists. -/
  ready : Bool
  /-- GEN_SYSTEMATIC: the isSystematic flag of the instance. -/
  systematic : Bool
  /-- GEN_S: its slice size. -/
  s : BitVec 16
  /-- GEN_N: its segment count. -/
  n : Word32
  /-- GEN_SYSPOS: the number of systematic slices emitted so far. -/
  sysPos : Word32
  /-- GEN_INDEX: the number of slices emitted, modulo 2^32. -/
  index : Word32
  /-- GEN_DRAWS: the number of draws taken, modulo 2^32. -/
  draws : Word32
  deriving DecidableEq, Repr

/-- The solver state of 10_state.md R37. SOL_ROWS is the length of the row file. -/
structure Sol where
  /-- SOL_READY: a solver instance exists. -/
  ready : Bool
  /-- SOL_S: its slice size. -/
  s : BitVec 16
  /-- SOL_TL: its total payload length. -/
  tl : Word32
  /-- SOL_N: its segment count. -/
  n : Word32
  /-- The row file: row `r` is the pair `(C[r], D[r])`. -/
  rows : List Slice
  /-- SOL_SOLVED: some SOL.TRY of the instance reached COMPLETE. -/
  solved : Bool
  /-- LAST_TRY_PRESENT: the most recent SOL.TRY of the instance answered a payload. -/
  lastTryPresent : Bool
  deriving DecidableEq, Repr

/-- The fault state of 10_state.md R39. -/
structure FaultRecord where
  /-- FAULT, which the output `fault_o` repeats (60_exceptions.md R308). -/
  fault : Bool
  /-- FAULT_CAUSE. -/
  cause : BitVec 8
  /-- FAULT_PORT. -/
  port : Word32
  /-- FAULT_CMD. -/
  cmd : Word64
  /-- FAULT_INFO. -/
  info : Word32
  deriving DecidableEq, Repr

/-- The four queues of a host port (10_state.md R58), the head first. -/
structure Port where
  /-- CMDQ: command words pushed by the host. -/
  cmdq : List Word64
  /-- DINQ: input bytes pushed by the host. -/
  dinq : List Byte
  /-- DOUTQ: output bytes pushed by the core. -/
  doutq : List Byte
  /-- RESPQ: response words pushed by the core. -/
  respq : List Word64
  deriving DecidableEq, Repr

/-- A port all of whose queues are empty. -/
def Port.empty : Port := ⟨[], [], [], []⟩

/-- The ports that hold anything: port numbers strictly rising, no listed port empty. A port that is
not listed has four empty queues (DEDUCED, safe: notes/assumptions/22.md). -/
abbrev PortMap := List (Nat × Port)

/-- The plan session state of 10_state.md R59. -/
structure PlanSession where
  /-- PLAN_ACTIVE. -/
  active : Bool
  /-- PLAN_K: the ordinal of the next plan token within the session. -/
  k : Word32
  deriving DecidableEq, Repr

/-- What a command in progress holds on (10_state.md R60). -/
inductive Progress where
  /-- GEN.NEXT holds on RngDraw, before its next draw. -/
  | drawing
  /-- SOL.TRY holds on PlanNext, inside its plan session. -/
  | planning
  deriving DecidableEq, Repr

/-- The hidden execution state of 10_state.md R60. The `p` and `w` of EXEC(p, w, progress) are the
fields `cmdPort` and `cmdWord` of `State` (DESIGN CHOICE, unsafe: notes/assumptions/16.md). -/
inductive CoreState where
  /-- No command in progress. -/
  | idle
  /-- The command last taken is in progress and holds. -/
  | exec (progress : Progress)
  /-- A fault has occurred. -/
  | halted
  deriving DecidableEq, Repr

/-- The whole machine (10_state.md R30), and what the model adds to it: the parameters it was built
with, the command being executed, the two collaborator ports, and the agents' moves to come. -/
structure State where
  /-- The implementation parameters (00_scope.md R7); no step changes them (10_state.md R48). -/
  params : Params
  /-- The slice register file S0 to S15 (R31). -/
  sregs : Vector SReg 16
  /-- Payload memory PMEM (R33). -/
  pmem : Memory
  /-- PAYLOAD_LEN (R34). -/
  payloadLen : Word32
  /-- PAY_VALID (R34). -/
  payValid : Bool
  /-- The generator (R35). -/
  gen : Gen
  /-- The solver (R37). -/
  sol : Sol
  /-- The fault state (R39). -/
  fault : FaultRecord
  /-- The queues of the host ports (R58). -/
  ports : PortMap
  /-- The plan session (R59). -/
  plan : PlanSession
  /-- The execution state (R60). -/
  core : CoreState
  /-- `p` of the command the core took last (R60). -/
  cmdPort : Nat
  /-- `w` of the command the core took last (R60). -/
  cmdWord : Word64
  /-- The RNG port: the bytes of the outstanding RngDraw that have arrived (20_memory.md R97;
  DESIGN CHOICE, safe: notes/assumptions/10.md). -/
  rngIn : List Byte
  /-- How many times RngNew() has been asked of the random-source side: which source instance is
  bound (10_state.md R36; DESIGN CHOICE, safe: notes/assumptions/21.md). -/
  rngInst : Nat
  /-- The PLAN port: the token that has arrived for the outstanding PlanNext (20_memory.md R98;
  DESIGN CHOICE, safe: notes/assumptions/11.md). -/
  planIn : Option Word64
  /-- The agents' moves to come that this state fixes, the next one first (00_scope.md R6;
  DESIGN CHOICE, safe: notes/assumptions/2.md). -/
  agenda : List Event
  /-- How many moves have been taken from `Config.env`, which goes on after `agenda`. -/
  envTick : Nat
  deriving DecidableEq, Repr

/-- SOL_ROWS (10_state.md R37): the row count. -/
def State.solRows (s : State) : Nat := s.sol.rows.length

/-- The output `fault_o` (60_exceptions.md R308). -/
def State.faultO (s : State) : Bool := s.fault.fault

/-- Why a step of the MODEL stops with a fault. The faults of the block itself (60_exceptions.md R301)
are next states: the block halts and goes on answering (R305). -/
inductive Fault where
  /-- SPLIT or GEN.NEXT read a byte of payload memory that no PAY.LOAD has written since reset. The
  spec leaves such a byte unspecified and says it is never read (10_state.md R33). Safe: no run from
  reset raises it. -/
  | payloadByteUnwritten
  deriving DecidableEq, Repr

/-- Why the model gives no next state (DESIGN CHOICE, safe: notes/assumptions/17.md). -/
inductive Refusal where
  /-- An instruction of the table without a meaning; no arm of `exec` raises it. Safe. -/
  | notModelled (mnemonic : String)
  /-- A command's meaning was called while another command is in progress: the core executes one
  command at a time (20_memory.md R85), so the situation does not arise in a step. Safe. -/
  | coreBusy
  /-- A plan token's meaning was called outside a plan session: tokens are read by SOL.TRY's PlanNext
  only (20_memory.md R98), so the situation does not arise in a step. Safe. -/
  | noPlanSession
  /-- A command's meaning was called with fewer bytes in the input queue than it consumes: the core
  starts only ready commands (20_memory.md R88), so the situation does not arise in a step. Safe. -/
  | inputNotReady
  deriving DecidableEq, Repr

/-- A slice register after reset (70_reset_and_hazards.md R341): not valid. Its content is
unspecified and unreadable; the model holds an empty slice there (DESIGN CHOICE, unsafe: notes/assumptions/4.md). -/
def SReg.reset : SReg := ⟨false, ⟨[], []⟩⟩

/-- The machine right after reset (70_reset_and_hazards.md R341), every queue empty, the core IDLE. -/
def State.reset : State where
  params := Config.params
  sregs := Vector.replicate 16 SReg.reset
  pmem := []
  payloadLen := 0
  payValid := false
  gen := ⟨false, false, 0, 0, 0, 0, 0⟩
  sol := ⟨false, 0, 0, 0, [], false, false⟩
  fault := ⟨false, 0, 0, 0, 0⟩
  ports := []
  plan := ⟨false, 0⟩
  core := .idle
  cmdPort := 0
  cmdWord := 0
  rngIn := []
  rngInst := 0
  planIn := none
  agenda := []
  envTick := 0

end Sys2Proof.Machine
end

