-- ==== Sys2Proof/Machine/Operands.lean ====
section
/-!
DEFINITION. The operand forms: packing bits from bytes and back (20_memory.md R83, 30_encoding.md
R121, 40_packed_buffer.md R151 to R153), unit vectors, the slice operations XorInto and Mix
(R155, 42_split_mix.md R202), MIX's register mask (30_encoding.md R116), response words (R120).
-/

namespace Sys2Proof.Machine

/-- The number whose bit `i` is element `i` of the list (00_scope.md R9). -/
def natOfBits : List Bool → Nat
  | [] => 0
  | b :: bs => b.toNat + 2 * natOfBits bs

/-- Bit `i` of a byte image: bit `i mod 8` of byte `i div 8`, LSB-first (20_memory.md R83). -/
def imageBit (img : List Byte) (i : Nat) : Bool := (img.getD (i / 8) 0).getLsbD (i % 8)

/-- PackBits(img, n): the first `n` bits of a byte image; the padding bits of the last byte are
ignored (40_packed_buffer.md R151). -/
def packBits (img : List Byte) (n : Nat) : List Bool := (List.range n).map (imageBit img)

/-- The number of bytes that `n` coefficient bits occupy (20_memory.md R83). -/
def coefBytes (n : Nat) : Nat := ceilDiv n 8

/-- Byte `j` of the image of a bit vector, its padding bits 0 (30_encoding.md R121). -/
def imageByte (c : List Bool) (j : Nat) : Byte :=
  BitVec.ofNat 8 (natOfBits ((List.range 8).map fun t => c.getD (8 * j + t) false))

/-- ImageBytes: the bytes of a bit vector (30_encoding.md R121). -/
def imageBytes (c : List Bool) : List Byte := (List.range (coefBytes c.length)).map (imageByte c)

/-- The byte image of a slice: coefficient bytes, then data bytes (30_encoding.md R121). -/
def Slice.image (x : Slice) : List Byte := imageBytes x.coef ++ x.data

/-- The slice whose byte image starts a byte sequence (30_encoding.md R121): `n` coefficient bits,
then `sz` data bytes. -/
def sliceOfImage (n sz : Nat) (img : List Byte) : Slice :=
  ⟨packBits (img.take (coefBytes n)) n, (img.drop (coefBytes n)).take sz⟩

/-- The length of the byte image of a slice of `n` coefficient bits and `sz` data bytes. -/
def imageLength (n sz : Nat) : Nat := coefBytes n + sz

/-- The unit vector `e_i` of length `n` (00_scope.md R10). -/
def unitVector (n i : Nat) : List Bool := (List.range n).map (· == i)

/-- XorInto on bit buffers of one length (40_packed_buffer.md R155, R158). -/
def xorBits (a b : List Bool) : List Bool := List.zipWith Bool.xor a b

/-- XorInto on byte buffers of one length. -/
def xorBytes (a b : List Byte) : List Byte := List.zipWith (· ^^^ ·) a b

/-- XorInto on both halves of a slice (41_slice.md R172, 42_split_mix.md R202). -/
def Slice.xor (x y : Slice) : Slice := ⟨xorBits x.coef y.coef, xorBytes x.data y.data⟩

/-- Two slices have the same `n` and the same `s`. -/
def Slice.sameShape (x y : Slice) : Bool := x.n == y.n && x.s == y.s

/-- Mix of a sequence (42_split_mix.md R202): the first slice, every later one XORed into it; an
empty sequence has no mix. -/
def mixSlices : List Slice → Option Slice
  | [] => none
  | x :: xs => some (xs.foldl Slice.xor x)

/-- The registers a MIX mask selects, ascending (30_encoding.md R116). -/
def maskRegs (mask : BitVec 16) : List SIdx :=
  (List.finRange 16).filter fun k => mask.getLsbD k.val

/-- Every element, when every element is there. -/
def allSome {α : Type} : List (Option α) → Option (List α)
  | [] => some []
  | none :: _ => none
  | some a :: rest => (allSome rest).map (a :: ·)

/-- The indices of the true bits of a selection, ascending (43_generator.md R223). -/
def selected (sel : List Bool) : List Nat :=
  (List.range sel.length).filter fun i => sel.getD i false

/-- A response word: tag in bits 63:56, zeros, value in bits 31:0 (30_encoding.md R120). -/
def response (tag : BitVec 8) (value : Word32) : Word64 := tag ++ (0#24) ++ value

/-- The response of SOL.TRY: bit 0 set for present (30_encoding.md R120). -/
def tryResponse (present : Bool) : Word64 := response 0x33 (BitVec.ofNat 32 present.toNat)

end Sys2Proof.Machine
end

