-- ==== Sys2Proof/Machine/Ops.lean ====
section
/-!
DEFINITION. The named operations over the state: payload memory, slice registers, the queues of the
ports (00_scope.md R11), taking a fault (60_exceptions.md R302), answering in HALTED (R305) and the
way out of it, reset (70_reset_and_hazards.md R340); then the frame every command runs in.
-/

namespace Sys2Proof.Machine

/-! ### Data listed by number: payload memory and the ports -/

/-- The entry listed for `a`. -/
def entryAt {α : Type} : List (Nat × α) → Nat → Option α
  | [], _ => none
  | (k, v) :: rest, a => if k = a then some v else entryAt rest a

/-- The list with the entry for `a` set to `v`, at its place in the rising order. -/
def setEntry {α : Type} : List (Nat × α) → Nat → α → List (Nat × α)
  | [], a, v => [(a, v)]
  | (k, u) :: rest, a, v =>
    if a < k then (a, v) :: (k, u) :: rest
    else if a = k then (a, v) :: rest
    else (k, u) :: setEntry rest a v

/-- The list without an entry for `a`. -/
def dropEntry {α : Type} (l : List (Nat × α)) (a : Nat) : List (Nat × α) := l.filter (·.1 != a)

/-- The numbers listed are strictly rising. -/
abbrev Rising {α : Type} (l : List (Nat × α)) : Prop := (l.map Prod.fst).Pairwise (· < ·)

/-! ### Payload memory (10_state.md R33) -/

/-- PMEM[a]; `none` where nothing has been written since reset. -/
def Memory.read (m : Memory) (a : Nat) : Option Byte := entryAt m a

/-- `PMEM[a] <- b`. -/
def Memory.write (m : Memory) (a : Nat) (b : Byte) : Memory := setEntry m a b

/-- `PMEM[a], PMEM[a+1], ... <- bs` (43_generator.md R220). -/
def Memory.writeAll : Memory → Nat → List Byte → Memory
  | m, _, [] => m
  | m, a, b :: bs => Memory.writeAll (Memory.write m a b) (a + 1) bs

/-- The canonical form of payload memory: addresses strictly rising. (An unlisted address holds no
value, so no entry can equal it.) -/
abbrev Memory.wf (m : Memory) : Prop := Rising m

/-! ### Slice registers (10_state.md R31, R32) -/

/-- `S[k]`. -/
def State.reg (s : State) (k : SIdx) : SReg := s.sregs[k]

/-- `S[k] <- x`: a register is written whole and becomes valid (10_state.md R32). -/
def State.writeReg (s : State) (k : SIdx) (x : Slice) : State :=
  { s with sregs := s.sregs.set k.val ⟨true, x⟩ k.isLt }

/-! ### Queues (10_state.md R58) -/

/-- The queues of port `p`. -/
def portAt (m : PortMap) (p : Nat) : Port := (entryAt m p).getD Port.empty

/-- The ports with the queues of port `p` replaced; a port left with nothing is not listed. -/
def setPortAt (m : PortMap) (p : Nat) (q : Port) : PortMap :=
  if q = Port.empty then dropEntry m p else setEntry m p q

/-- The canonical form of the ports: numbers strictly rising, no listed port empty. -/
abbrev PortMap.wf (m : PortMap) : Prop := Rising m ∧ ∀ e ∈ m, e.2 ≠ Port.empty

/-- The queues of port `p`. -/
def State.port (s : State) (p : Nat) : Port := portAt s.ports p

/-- The state with the queues of port `p` replaced. -/
def State.setPort (s : State) (p : Nat) (q : Port) : State :=
  { s with ports := setPortAt s.ports p q }

/-- The queues of the port whose command is being executed. -/
def State.here (s : State) : Port := s.port s.cmdPort

/-- RespPush(p, w) (00_scope.md R11), `p` the port of the command being executed. -/
def State.respPush (s : State) (w : Word64) : State :=
  s.setPort s.cmdPort { s.here with respq := s.here.respq ++ [w] }

/-- DoutPush(p, bytes). -/
def State.doutPush (s : State) (bytes : List Byte) : State :=
  s.setPort s.cmdPort { s.here with doutq := s.here.doutq ++ bytes }

/-- The state after DinPop(p, k); the bytes popped are `s.here.dinq.take k`. -/
def State.dinDrop (s : State) (k : Nat) : State :=
  s.setPort s.cmdPort { s.here with dinq := s.here.dinq.drop k }

/-! ### Faults (60_exceptions.md) -/

/-- The faults of 60_exceptions.md R301. -/
inductive FaultCode where
  | illegal | reserved | sregUnwritten | shape | emptyMix | badConfig | index | noPayload
  | genUninit | solUninit | rowsFull | plan | csr
  deriving DecidableEq, Repr

/-- The code column of 60_exceptions.md R301. -/
def FaultCode.code : FaultCode → BitVec 8
  | .illegal => 0x01
  | .reserved => 0x02
  | .sregUnwritten => 0x03
  | .shape => 0x04
  | .emptyMix => 0x05
  | .badConfig => 0x06
  | .index => 0x07
  | .noPayload => 0x08
  | .genUninit => 0x09
  | .solUninit => 0x0A
  | .rowsFull => 0x0B
  | .plan => 0x0C
  | .csr => 0x0D

/-- A fault to be raised: its code and its FAULT_INFO value (60_exceptions.md R301). -/
structure Trap where
  /-- Which fault. -/
  code : FaultCode
  /-- The FAULT_INFO value. -/
  info : Nat
  deriving DecidableEq, Repr

/-- The first check of a list that fails (00_scope.md R12, 60_exceptions.md R307): each entry is the
failing condition and the fault it raises. -/
def firstFailing : List (Bool × Trap) → Option Trap
  | [] => none
  | (failing, t) :: rest => if failing then some t else firstFailing rest

/-- The fault record of a fault of the command being executed (60_exceptions.md R302). -/
def State.faultRecord (s : State) (t : Trap) : FaultRecord :=
  ⟨true, t.code.code, BitVec.ofNat 32 s.cmdPort, s.cmdWord, BitVec.ofNat 32 t.info⟩

/-- The ERR word of a fault code (30_encoding.md R120). -/
def errResponse (cause : BitVec 8) : Word64 := response 0xFF (cause.setWidth 32)

/-- Fault entry (60_exceptions.md R302): the record is written, the ERR word pushed, a plan session in
progress ends, and the core halts. Nothing else changes. -/
def State.raise (s : State) (t : Trap) : State :=
  { s.respPush (errResponse t.code.code) with
    fault := s.faultRecord t
    core := .halted
    plan := { s.plan with active := false }
    planIn := none }

/-- What HALTED answers to a command it does not execute (60_exceptions.md R305 (b)). -/
def State.answerHalted (s : State) : State := s.respPush (errResponse s.fault.cause)

/-- `rst_i` (70_reset_and_hazards.md R340, R341), the only way out of HALTED (60_exceptions.md R306):
every piece of state takes its reset value and every queue is emptied. The parameters are the
block's own, and the agents outside the core keep theirs (R342; DESIGN CHOICE, safe: notes/assumptions/18.md). -/
def State.hardReset (s : State) : State :=
  { State.reset with
    params := s.params
    rngInst := s.rngInst
    agenda := s.agenda
    envTick := s.envTick }

/-! ### The frame of a command -/

/-- A command taken from its queue: in HALTED it is only answered (60_exceptions.md R305); IDLE, its
checks come first, in order, and the first that fails raises its fault (00_scope.md R12); then it
has its effect. While another command is in progress none is taken (20_memory.md R85). -/
def runCommand (s : State) (check : Option Trap) (effect : Host.Outcome State Fault Refusal) :
    Host.Outcome State Fault Refusal :=
  match s.core with
  | .halted => .next s.answerHalted
  | .exec _ => .refused .coreBusy
  | .idle =>
    match check with
    | some t => .next (s.raise t)
    | none => effect

/-- A command that consumes `k` input bytes: its effect is a function of those bytes and the state
after DinPop (00_scope.md R11). The core starts it only when the bytes are there (20_memory.md R88). -/
def withInput (s : State) (k : Nat) (effect : List Byte → State → State) :
    Host.Outcome State Fault Refusal :=
  if s.here.dinq.length < k then .refused .inputNotReady
  else .next (effect (s.here.dinq.take k) (s.dinDrop k))

/-- A plan token read inside the plan session of SOL.TRY (44_solver.md R253). -/
def inSession (s : State) (effect : State) : Host.Outcome State Fault Refusal :=
  match s.core with
  | .exec .planning => .next effect
  | .exec .drawing | .idle | .halted => .refused .noPlanSession

end Sys2Proof.Machine
end

