-- ==== Sys2Proof/Machine/Flags.lean ====
section
/-!
DEFINITION. The flags, which are the bits of STATUS (10_state.md R63, R42), the other CSR views, and
the CSR map (R40).
-/

namespace Sys2Proof.Machine

/-- GEN_IN_SYS: the next GEN.NEXT emits a systematic slice (10_state.md R42). -/
def State.genInSys (s : State) : Bool :=
  s.gen.ready && s.gen.systematic && decide (s.gen.sysPos < s.gen.n)

/-- The logical states of the solver (10_state.md R38). -/
inductive SolverPhase where
  /-- No solver instance. -/
  | uninit
  /-- An instance that no SOL.TRY has solved. -/
  | accumulating
  /-- Some SOL.TRY of the instance reached COMPLETE. -/
  | solved
  deriving DecidableEq, Repr

/-- The logical state of the solver, a function of its fields (10_state.md R38). -/
def State.solverPhase (s : State) : SolverPhase :=
  match s.sol.ready, s.sol.solved with
  | false, _ => .uninit
  | true, false => .accumulating
  | true, true => .solved

/-- The bits of STATUS from bit 0 up (10_state.md R42). -/
def State.statusBits (s : State) : List Bool :=
  [s.fault.fault, s.payValid, s.gen.ready, s.gen.systematic, s.sol.ready, s.sol.solved,
    s.sol.lastTryPresent, s.genInSys]

/-- STATUS, CSR 0x001 (10_state.md R42). -/
def State.status (s : State) : Word32 := BitVec.ofNat 32 (natOfBits s.statusBits)

/-- SREG_VALID, CSR 0x006: bit `i` is `S[i].valid` (10_state.md R47). -/
def State.sregValid (s : State) : Word32 :=
  BitVec.ofNat 32 (natOfBits (s.sregs.toList.map SReg.valid))

/-- The CSR map of 10_state.md R40; `none` for a number that is not in it. -/
def State.csr (s : State) (c : Nat) : Option Word32 :=
  match c with
  | 0x000 => some 0x50425831
  | 0x001 => some s.status
  | 0x002 => some (s.fault.cause.setWidth 32)
  | 0x003 => some s.fault.port
  | 0x004 => some (s.fault.cmd.extractLsb' 0 32)
  | 0x005 => some (s.fault.cmd.extractLsb' 32 32)
  | 0x006 => some s.sregValid
  | 0x007 => some s.fault.info
  | 0x008 => some (BitVec.ofNat 32 s.params.nmax)
  | 0x009 => some (BitVec.ofNat 32 s.params.smax)
  | 0x00A => some (BitVec.ofNat 32 s.params.rmax)
  | 0x00B => some (BitVec.ofNat 32 s.params.pmax)
  | 0x00C => some (BitVec.ofNat 32 s.params.nports)
  | 0x010 => some s.payloadLen
  | 0x011 => some (s.gen.s.setWidth 32)
  | 0x012 => some s.gen.n
  | 0x013 => some s.gen.index
  | 0x014 => some s.gen.draws
  | 0x020 => some (s.sol.s.setWidth 32)
  | 0x021 => some s.sol.tl
  | 0x022 => some s.sol.n
  | 0x023 => some (BitVec.ofNat 32 s.solRows)
  | _ => none

end Sys2Proof.Machine
end

