-- ==== Sys2Proof/Machine/Checks.lean ====
section
/-!
DEFINITION. The checks of every command, in the order of its rule (00_scope.md R12, 60_exceptions.md
R307). They read the command and the state alone, so that readiness (20_memory.md R88) can know
whether a command will fault before it is started.
-/

namespace Sys2Proof.Machine

/-- CSRR (45_control.md R292): the number is in the CSR map. -/
def checkCsrr (csr : Nat) (s : State) : Option Trap :=
  firstFailing [((s.csr csr).isNone, ⟨.csr, csr⟩)]

/-- PAY.LOAD (43_generator.md R220). -/
def checkPayLoad (len : Nat) (s : State) : Option Trap :=
  firstFailing [(decide (len > s.params.pmax), ⟨.badConfig, 0⟩)]

/-- GEN.INIT (43_generator.md R221). -/
def checkGenInit (sz : Nat) (s : State) : Option Trap :=
  firstFailing [
    (!s.payValid, ⟨.noPayload, 0⟩),
    (decide (sz = 0 ∨ sz > s.params.smax), ⟨.badConfig, 0⟩),
    (decide (ceilDiv s.payloadLen.toNat sz > s.params.nmax), ⟨.badConfig, 0⟩)]

/-- GEN.NEXT (43_generator.md R223). -/
def checkGenNext (s : State) : Option Trap :=
  firstFailing [(!s.gen.ready, ⟨.genUninit, 0⟩)]

/-- SLC.CREATE (41_slice.md R170). -/
def checkSlcCreate (sz n : Nat) (s : State) : Option Trap :=
  firstFailing [
    (decide (sz > s.params.smax), ⟨.badConfig, 0⟩),
    (decide (n > s.params.nmax), ⟨.badConfig, 0⟩)]

/-- SLC.CLONE (41_slice.md R171). -/
def checkSlcClone (rs : SIdx) (s : State) : Option Trap :=
  firstFailing [(!(s.reg rs).valid, ⟨.sregUnwritten, rs.val⟩)]

/-- SLC.XOR (41_slice.md R172): rd before rs, then the shapes. -/
def checkSlcXor (rd rs : SIdx) (s : State) : Option Trap :=
  firstFailing [
    (!(s.reg rd).valid, ⟨.sregUnwritten, rd.val⟩),
    (!(s.reg rs).valid, ⟨.sregUnwritten, rs.val⟩),
    (!(s.reg rd).slice.sameShape (s.reg rs).slice, ⟨.shape, 0⟩)]

/-- SLC.OUT (41_slice.md R173). -/
def checkSlcOut (rs : SIdx) (s : State) : Option Trap :=
  firstFailing [(!(s.reg rs).valid, ⟨.sregUnwritten, rs.val⟩)]

/-- SPLIT (42_split_mix.md R201). -/
def checkSplit (i : Nat) (s : State) : Option Trap :=
  firstFailing [
    (!s.gen.ready, ⟨.genUninit, 0⟩),
    (decide (i ≥ s.gen.n.toNat), ⟨.index, i⟩)]

/-- The slices a MIX mask selects, ascending (42_split_mix.md R203). -/
def State.maskSlices (s : State) (mask : BitVec 16) : List Slice :=
  (maskRegs mask).map fun k => (s.reg k).slice

/-- A register's shape differs from that of the lowest selected register (42_split_mix.md R203). -/
def State.misshapen (s : State) (mask : BitVec 16) (k : SIdx) : Bool :=
  match s.maskSlices mask with
  | [] => false
  | x :: _ => !(s.reg k).slice.sameShape x

/-- MIX (42_split_mix.md R203): the empty mask; the lowest selected unwritten register; the lowest
selected register of another shape. -/
def checkMix (mask : BitVec 16) (s : State) : Option Trap :=
  firstFailing (
    (decide (mask = 0), ⟨.emptyMix, 0⟩) ::
    (maskRegs mask).map (fun k => (!(s.reg k).valid, ⟨.sregUnwritten, k.val⟩)) ++
    (maskRegs mask).map (fun k => (s.misshapen mask k, ⟨.shape, k.val⟩)))

/-- SOL.INIT (44_solver.md R250). -/
def checkSolInit (sz tl : Nat) (s : State) : Option Trap :=
  firstFailing [
    (decide (sz = 0 ∨ sz > s.params.smax), ⟨.badConfig, 0⟩),
    (decide (ceilDiv tl sz > s.params.nmax), ⟨.badConfig, 0⟩)]

/-- SOL.REM (44_solver.md R251). -/
def checkSolRem (rs : SIdx) (s : State) : Option Trap :=
  firstFailing [
    (!s.sol.ready, ⟨.solUninit, 0⟩),
    (!(s.reg rs).valid, ⟨.sregUnwritten, rs.val⟩),
    (decide ((s.reg rs).slice.n ≠ s.sol.n.toNat ∨ (s.reg rs).slice.s ≠ s.sol.s.toNat), ⟨.shape, rs.val⟩),
    (decide (s.solRows = s.params.rmax), ⟨.rowsFull, 0⟩)]

/-- SOL.REMIN (44_solver.md R252). -/
def checkSolRemin (s : State) : Option Trap :=
  firstFailing [
    (!s.sol.ready, ⟨.solUninit, 0⟩),
    (decide (s.solRows = s.params.rmax), ⟨.rowsFull, 0⟩)]

/-- SOL.TRY (44_solver.md R253), before its session. -/
def checkSolTry (s : State) : Option Trap :=
  firstFailing [(!s.sol.ready, ⟨.solUninit, 0⟩)]

/-- The fault a command raises in a state before it has any effect, if any. -/
def check (i : Instr) (s : State) : Option Trap :=
  match i with
  | .nop => none
  | .sync => none
  | .csrr csr => checkCsrr csr s
  | .payLoad len => checkPayLoad len s
  | .genInit sz _ => checkGenInit sz s
  | .genNext _ => checkGenNext s
  | .slcCreate _ sz n => checkSlcCreate sz n s
  | .slcClone _ rs => checkSlcClone rs s
  | .slcXor rd rs => checkSlcXor rd rs s
  | .slcOut rs => checkSlcOut rs s
  | .split _ i => checkSplit i s
  | .mix _ mask => checkMix mask s
  | .solInit sz tl => checkSolInit sz tl s
  | .solRem rs => checkSolRem rs s
  | .solRemin => checkSolRemin s
  | .solTry => checkSolTry s
  | .planEnd => none
  | .planSwap _ _ => none
  | .planXor _ _ => none
  | .planComplete => none

end Sys2Proof.Machine
end

