-- ==== Sys2Proof/Machine/Control.lean ====
section
/-!
DEFINITION. The control commands NOP, SYNC, CSRR (45_control.md).
-/

namespace Sys2Proof.Machine

/-- NOP (45_control.md R290). -/
def execNop (s : State) : Host.Outcome State Fault Refusal := runCommand s none (.next s)

/-- SYNC (45_control.md R291). -/
def execSync (s : State) : Host.Outcome State Fault Refusal :=
  runCommand s none (.next (s.respPush (response 0x01 0)))

/-- CSRR (45_control.md R292). In HALTED a mapped number is read as ever and an unmapped one is only
answered (60_exceptions.md R305). -/
def execCsrr (csr : Nat) (s : State) : Host.Outcome State Fault Refusal :=
  match s.csr csr with
  | none => runCommand s (checkCsrr csr s) (.next s)
  | some v =>
    match s.core with
    | .exec _ => .refused .coreBusy
    | .idle | .halted => .next (s.respPush (response 0x02 v))

end Sys2Proof.Machine
end

