-- ==== Sys2Proof/Machine/SplitMix.lean ====
section
/-!
DEFINITION. The segment function and the commands SPLIT and MIX (42_split_mix.md).
-/

namespace Sys2Proof.Machine

/-- Byte `k` of segment `i` (42_split_mix.md R200): zero past the payload, which is not a read of
PMEM; `none` is a byte no PAY.LOAD has written. -/
def State.segByte (s : State) (i k : Nat) : Option Byte :=
  if i * s.gen.s.toNat + k < s.payloadLen.toNat then Memory.read s.pmem (i * s.gen.s.toNat + k)
  else some 0

/-- Seg(i) (42_split_mix.md R200). -/
def State.seg (s : State) (i : Nat) : Option (List Byte) :=
  allSome ((List.range s.gen.s.toNat).map (s.segByte i))

/-- The systematic slice Sys(i) (42_split_mix.md R200). -/
def State.sys (s : State) (i : Nat) : Option Slice :=
  (s.seg i).map fun d => ⟨unitVector s.gen.n.toNat i, d⟩

/-- SPLIT (42_split_mix.md R201). -/
def execSplit (rd : SIdx) (i : Nat) (s : State) : Host.Outcome State Fault Refusal :=
  runCommand s (checkSplit i s)
    (match s.sys i with
    | some x => .next (s.writeReg rd x)
    | none => .fault .payloadByteUnwritten)

/-- MIX (42_split_mix.md R203): all sources are read before the write. -/
def execMix (rd : SIdx) (mask : BitVec 16) (s : State) : Host.Outcome State Fault Refusal :=
  runCommand s (checkMix mask s)
    (.next (match mixSlices (s.maskSlices mask) with
      | some x => s.writeReg rd x
      | none => s))

end Sys2Proof.Machine
end

