-- ==== Sys2Proof/Machine/Generator.lean ====
section
/-!
DEFINITION. The slice generator: PAY.LOAD, GEN.INIT, GEN.NEXT (43_generator.md).
-/

namespace Sys2Proof.Machine

/-- PAY.LOAD (43_generator.md R220). -/
def execPayLoad (len : Nat) (s : State) : Host.Outcome State Fault Refusal :=
  runCommand s (checkPayLoad len s)
    (withInput s len fun bytes t =>
      { t with
        pmem := Memory.writeAll t.pmem 0 bytes
        payloadLen := BitVec.ofNat 32 len
        payValid := true
        gen := { t.gen with ready := false } })

/-- RngNew() (20_memory.md R97): a fresh source instance; nothing of an old request is left. -/
def State.rngNew (s : State) : State := { s with rngInst := s.rngInst + 1, rngIn := [] }

/-- GEN.INIT (43_generator.md R221). -/
def execGenInit (sz : Nat) (sys : Bool) (s : State) : Host.Outcome State Fault Refusal :=
  runCommand s (checkGenInit sz s)
    (.next { s.rngNew with
      gen :=
        { ready := true
          systematic := sys
          s := BitVec.ofNat 16 sz
          n := BitVec.ofNat 32 (ceilDiv s.payloadLen.toNat sz)
          sysPos := 0
          index := 0
          draws := 0 } })

/-- The bytes one Draw takes (43_generator.md R222). -/
def State.drawBytes (s : State) : Nat := coefBytes s.gen.n.toNat

/-- The selection a Draw makes of the bytes that have arrived (43_generator.md R222). -/
def State.drawSel (s : State) : List Bool := packBits s.rngIn s.gen.n.toNat

/-- The state after a Draw: its bytes are consumed and GEN_DRAWS has counted it (43_generator.md R222). -/
def State.afterDraw (s : State) : State :=
  { s with
    rngIn := s.rngIn.drop s.drawBytes
    gen := { s.gen with draws := s.gen.draws + 1 } }

/-- Mix of the systematic slices a selection takes, ascending (43_generator.md R223). -/
def State.mixSel (s : State) (sel : List Bool) : Option Slice :=
  (allSome ((selected sel).map s.sys)).bind mixSlices

/-- The end of GEN.NEXT: the element is written and counted, and the command is over. -/
def State.emit (s : State) (rd : SIdx) (x : Slice) : State :=
  { s.writeReg rd x with
    gen := { s.gen with index := s.gen.index + 1 }
    core := .idle }

/-- The random phase of GEN.NEXT up to its next draw (43_generator.md R222, R223): until the bytes of
the draw are there the command holds; an all-false selection is discarded and the command goes on
to another draw in its next turn (DESIGN CHOICE, safe: notes/assumptions/8.md); any other selection is mixed
and emitted. -/
def drawOnce (rd : SIdx) (s : State) : Host.Outcome State Fault Refusal :=
  if s.rngIn.length < s.drawBytes then .next { s with core := .exec .drawing }
  else if s.drawSel.any id then
    match s.mixSel s.drawSel with
    | some x => .next (s.afterDraw.emit rd x)
    | none => .fault .payloadByteUnwritten
  else .next { s.afterDraw with core := .exec .drawing }

/-- The systematic phase of GEN.NEXT (43_generator.md R223). -/
def emitSystematic (rd : SIdx) (s : State) : Host.Outcome State Fault Refusal :=
  match s.sys s.gen.sysPos.toNat with
  | some x => .next (({ s with gen := { s.gen with sysPos := s.gen.sysPos + 1 } } : State).emit rd x)
  | none => .fault .payloadByteUnwritten

/-- GEN.NEXT (43_generator.md R223): started when IDLE; resumed, when it is the command in progress,
at its next draw. -/
def execGenNext (rd : SIdx) (s : State) : Host.Outcome State Fault Refusal :=
  match s.core with
  | .exec .drawing => drawOnce rd s
  | .exec .planning | .idle | .halted =>
    runCommand s (checkGenNext s)
      (if s.genInSys then emitSystematic rd s else drawOnce rd s)

end Sys2Proof.Machine
end

