-- ==== Sys2Proof/Machine/SliceCommands.lean ====
section
/-!
DEFINITION. The slice commands SLC.CREATE, SLC.CLONE, SLC.XOR, SLC.OUT (41_slice.md).
-/

namespace Sys2Proof.Machine

/-- SLC.CREATE (41_slice.md R170). -/
def execSlcCreate (rd : SIdx) (sz n : Nat) (s : State) : Host.Outcome State Fault Refusal :=
  runCommand s (checkSlcCreate sz n s)
    (withInput s (imageLength n sz) fun img t => t.writeReg rd (sliceOfImage n sz img))

/-- SLC.CLONE (41_slice.md R171). -/
def execSlcClone (rd rs : SIdx) (s : State) : Host.Outcome State Fault Refusal :=
  runCommand s (checkSlcClone rs s) (.next (s.writeReg rd (s.reg rs).slice))

/-- SLC.XOR (41_slice.md R172). -/
def execSlcXor (rd rs : SIdx) (s : State) : Host.Outcome State Fault Refusal :=
  runCommand s (checkSlcXor rd rs s)
    (.next (s.writeReg rd ((s.reg rd).slice.xor (s.reg rs).slice)))

/-- SLC.OUT (41_slice.md R173). -/
def execSlcOut (rs : SIdx) (s : State) : Host.Outcome State Fault Refusal :=
  runCommand s (checkSlcOut rs s) (.next (s.doutPush (s.reg rs).slice.image))

end Sys2Proof.Machine
end

