-- ==== Sys2Proof/Machine/Solver.lean ====
section
/-!
DEFINITION. The solver commands SOL.INIT, SOL.REM, SOL.REMIN, SOL.TRY and the plan tokens SWAP, XOR,
COMPLETE, END (44_solver.md).
-/

namespace Sys2Proof.Machine

/-- SOL.INIT (44_solver.md R250). -/
def execSolInit (sz tl : Nat) (s : State) : Host.Outcome State Fault Refusal :=
  runCommand s (checkSolInit sz tl s)
    (.next { s with
      sol :=
        { ready := true
          s := BitVec.ofNat 16 sz
          tl := BitVec.ofNat 32 tl
          n := BitVec.ofNat 32 (ceilDiv tl sz)
          rows := []
          solved := false
          lastTryPresent := false } })

/-- The state with another row file. -/
def State.setRows (s : State) (rows : List Slice) : State :=
  { s with sol := { s.sol with rows := rows } }

/-- A row appended at index SOL_ROWS (44_solver.md R251, R252). -/
def State.appendRow (s : State) (x : Slice) : State := s.setRows (s.sol.rows ++ [x])

/-- SOL.REM (44_solver.md R251). -/
def execSolRem (rs : SIdx) (s : State) : Host.Outcome State Fault Refusal :=
  runCommand s (checkSolRem rs s) (.next (s.appendRow (s.reg rs).slice))

/-- SOL.REMIN (44_solver.md R252). -/
def execSolRemin (s : State) : Host.Outcome State Fault Refusal :=
  runCommand s (checkSolRemin s)
    (withInput s (imageLength s.sol.n.toNat s.sol.s.toNat) fun img t =>
      t.appendRow (sliceOfImage s.sol.n.toNat s.sol.s.toNat img))

/-- LAST_TRY_PRESENT and the response word of a SOL.TRY that answers absent (44_solver.md R253). -/
def State.answerAbsent (s : State) : State :=
  { s.respPush (tryResponse false) with sol := { s.sol with lastTryPresent := false } }

/-- PlanStart(): a plan session is open (44_solver.md R253). -/
def State.openSession (s : State) : State :=
  { s with
    plan := ⟨true, 0⟩
    planIn := none
    core := .exec .planning }

/-- PlanDone(): the session is over and SOL.TRY with it; tokens not delivered are discarded
(20_memory.md R98); PLAN_K stays (DEDUCED, safe: notes/assumptions/19.md). -/
def State.closeSession (s : State) : State :=
  { s with
    plan := { s.plan with active := false }
    planIn := none
    core := .idle }

/-- SOL.TRY (44_solver.md R253): absent at once when SOL_ROWS < SOL_N, else a plan session. -/
def execSolTry (s : State) : Host.Outcome State Fault Refusal :=
  runCommand s (checkSolTry s)
    (.next (if s.solRows < s.sol.n.toNat then s.answerAbsent else s.openSession))

/-- Row `r`. -/
def rowAt (rows : List Slice) (r : Nat) : Slice := rows.getD r ⟨[], []⟩

/-- ApplySwap(a, b, R) on both halves (44_solver.md R254), `R` the row count
(DEDUCED, safe: notes/assumptions/26.md). -/
def applySwap (a b : Nat) (rows : List Slice) : List Slice :=
  if a ≥ rows.length ∨ b ≥ rows.length then rows
  else (rows.set a (rowAt rows b)).set b (rowAt rows a)

/-- ApplyXor(a, b, R) on both halves (44_solver.md R255). -/
def applyXor (a b : Nat) (rows : List Slice) : List Slice :=
  if a ≥ rows.length ∨ b ≥ rows.length then rows
  else rows.set b ((rowAt rows b).xor (rowAt rows a))

/-- The session after a step that is no terminator: the rows changed, PLAN_K counted (44_solver.md
R253). -/
def State.afterToken (s : State) (rows : List Slice) : State :=
  { s.setRows rows with plan := { s.plan with k := s.plan.k + 1 } }

/-- PLAN.SWAP (44_solver.md R254). -/
def execPlanSwap (a b : Nat) (s : State) : Host.Outcome State Fault Refusal :=
  inSession s (s.afterToken (applySwap a b s.sol.rows))

/-- PLAN.XOR (44_solver.md R255). -/
def execPlanXor (a b : Nat) (s : State) : Host.Outcome State Fault Refusal :=
  inSession s (s.afterToken (applyXor a b s.sol.rows))

/-- `(D[0] ++ ... ++ D[N-1])[0 : SOL_TL]` (44_solver.md R253, R256). -/
def State.answer (s : State) : List Byte :=
  ((s.sol.rows.take s.sol.n.toNat).flatMap Slice.data).take s.sol.tl.toNat

/-- PLAN.COMPLETE (44_solver.md R256). -/
def execPlanComplete (s : State) : Host.Outcome State Fault Refusal :=
  inSession s
    { ((s.respPush (tryResponse true)).doutPush s.answer).closeSession with
      sol := { s.sol with solved := true, lastTryPresent := true } }

/-- PLAN.END (44_solver.md R257). -/
def execPlanEnd (s : State) : Host.Outcome State Fault Refusal :=
  inSession s s.answerAbsent.closeSession

end Sys2Proof.Machine
end

