-- ==== Sys2Proof/Machine/Dispatch.lean ====
section
/-!
DEFINITION. The one dispatch: each instruction of the opcode table and its meaning.
-/

namespace Sys2Proof.Machine

def exec (i : Instr) (s : State) : Host.Outcome State Fault Refusal :=
  match i with
  | .nop => Sys2Proof.Machine.execNop s
  | .sync => Sys2Proof.Machine.execSync s
  | .csrr csr => Sys2Proof.Machine.execCsrr csr s
  | .payLoad len => Sys2Proof.Machine.execPayLoad len s
  | .genInit sz sys => Sys2Proof.Machine.execGenInit sz sys s
  | .genNext rd => Sys2Proof.Machine.execGenNext rd s
  | .slcCreate rd sz n => Sys2Proof.Machine.execSlcCreate rd sz n s
  | .slcClone rd rs => Sys2Proof.Machine.execSlcClone rd rs s
  | .slcXor rd rs => Sys2Proof.Machine.execSlcXor rd rs s
  | .slcOut rs => Sys2Proof.Machine.execSlcOut rs s
  | .split rd j => Sys2Proof.Machine.execSplit rd j s
  | .mix rd mask => Sys2Proof.Machine.execMix rd mask s
  | .solInit sz tl => Sys2Proof.Machine.execSolInit sz tl s
  | .solRem rs => Sys2Proof.Machine.execSolRem rs s
  | .solRemin => Sys2Proof.Machine.execSolRemin s
  | .solTry => Sys2Proof.Machine.execSolTry s
  | .planEnd => Sys2Proof.Machine.execPlanEnd s
  | .planSwap a b => Sys2Proof.Machine.execPlanSwap a b s
  | .planXor a b => Sys2Proof.Machine.execPlanXor a b s
  | .planComplete => Sys2Proof.Machine.execPlanComplete s

end Sys2Proof.Machine
end

