-- ==== Sys2Proof/WellFormed.lean ====
section
/-!
DEFINITION. Which instructions have an encoding: the assembler refuses a number that does not fit
its field (30_encoding.md R122). Register indices, the flag of GEN.INIT and the MIX mask fit by
their types.
-/

namespace Sys2Proof

/-- A number fits a field of `w` bits (30_encoding.md R111, R118). -/
def fits (w n : Nat) : Bool := decide (n < 2 ^ w)

/-- Every number of the instruction fits its field: `a16` is 16 bits, `imm32` is 32 bits
(30_encoding.md R111), a plan row index is 30 bits (R118). -/
def Instr.wellFormed : Instr → Bool
  | .csrr csr => fits 16 csr
  | .payLoad len => fits 32 len
  | .genInit s _ => fits 16 s
  | .slcCreate _ s n => fits 16 s && fits 32 n
  | .split _ i => fits 32 i
  | .solInit s tl => fits 16 s && fits 32 tl
  | .planSwap a b => fits 30 a && fits 30 b
  | .planXor a b => fits 30 a && fits 30 b
  | .nop | .sync | .genNext _ | .slcClone _ _ | .slcXor _ _ | .slcOut _ | .mix _ _ | .solRem _
  | .solRemin | .solTry | .planEnd | .planComplete => true

end Sys2Proof
end

