-- ==== Sys2Proof/Decode.lean ====
section
/-!
DEFINITION. The decoders of the two 64-bit formats (30_encoding.md R110 to R119): command words and
plan tokens; then the encoder, written from the same tables.
-/

namespace Sys2Proof

/-- The opcode field `op`, bits 63:56 (30_encoding.md R111). -/
def opField (w : Word64) : BitVec 8 := w.extractLsb' 56 8

/-- The destination register field `rd`, bits 55:52. -/
def rdField (w : Word64) : SIdx := (w.extractLsb' 52 4).toFin

/-- The source register field `rs`, bits 51:48. -/
def rsField (w : Word64) : SIdx := (w.extractLsb' 48 4).toFin

/-- The field `a16`, bits 47:32. -/
def a16Field (w : Word64) : BitVec 16 := w.extractLsb' 32 16

/-- The field `imm32`, bits 31:0. -/
def imm32Field (w : Word64) : BitVec 32 := w.extractLsb' 0 32

/-- The field `kind` of a plan token, bits 63:60 (30_encoding.md R118). -/
def kindField (t : Word64) : BitVec 4 := t.extractLsb' 60 4

/-- The row index `a` of a plan token, bits 59:30. -/
def aField (t : Word64) : BitVec 30 := t.extractLsb' 30 30

/-- The row index `b` of a plan token, bits 29:0. -/
def bField (t : Word64) : BitVec 30 := t.extractLsb' 0 30

/-- What the decoder makes of a command word. -/
inductive Decoded where
  /-- A well-formed command. -/
  | command (i : Instr)
  /-- An opcode outside the map (30_encoding.md R114). -/
  | illegal
  /-- A legal opcode with a nonzero reserved field (R113). -/
  | reserved
  deriving DecidableEq, Repr

/-- The well-formedness test `(w & MASK) = MATCH` of 30_encoding.md R113. -/
def matching (w mask pattern : Word64) (i : Instr) : Decoded :=
  if w &&& mask = pattern then .command i else .reserved

/-- The decoder of command words: the opcode map of 30_encoding.md R112, the MATCH and MASK columns
of R113, every other opcode illegal (R114). -/
def decodeCommand (w : Word64) : Decoded :=
  match (opField w).toNat with
  | 0x00 => matching w 0xFFFFFFFFFFFFFFFF 0x0000000000000000 .nop
  | 0x01 => matching w 0xFFFFFFFFFFFFFFFF 0x0100000000000000 .sync
  | 0x02 => matching w 0xFFFF0000FFFFFFFF 0x0200000000000000 (.csrr (a16Field w).toNat)
  | 0x10 => matching w 0xFFFFFFFF00000000 0x1000000000000000 (.payLoad (imm32Field w).toNat)
  | 0x11 => matching w 0xFFFF0000FFFFFFFE 0x1100000000000000
              (.genInit (a16Field w).toNat ((imm32Field w).getLsbD 0))
  | 0x12 => matching w 0xFF0FFFFFFFFFFFFF 0x1200000000000000 (.genNext (rdField w))
  | 0x20 => matching w 0xFF0F000000000000 0x2000000000000000
              (.slcCreate (rdField w) (a16Field w).toNat (imm32Field w).toNat)
  | 0x21 => matching w 0xFF00FFFFFFFFFFFF 0x2100000000000000 (.slcClone (rdField w) (rsField w))
  | 0x22 => matching w 0xFF00FFFFFFFFFFFF 0x2200000000000000 (.slcXor (rdField w) (rsField w))
  | 0x23 => matching w 0xFFF0FFFFFFFFFFFF 0x2300000000000000 (.slcOut (rsField w))
  | 0x28 => matching w 0xFF0FFFFF00000000 0x2800000000000000
              (.split (rdField w) (imm32Field w).toNat)
  | 0x29 => matching w 0xFF0F0000FFFFFFFF 0x2900000000000000 (.mix (rdField w) (a16Field w))
  | 0x30 => matching w 0xFFFF000000000000 0x3000000000000000
              (.solInit (a16Field w).toNat (imm32Field w).toNat)
  | 0x31 => matching w 0xFFF0FFFFFFFFFFFF 0x3100000000000000 (.solRem (rsField w))
  | 0x32 => matching w 0xFFFFFFFFFFFFFFFF 0x3200000000000000 .solRemin
  | 0x33 => matching w 0xFFFFFFFFFFFFFFFF 0x3300000000000000 .solTry
  | _ => .illegal

/-- The decoder of plan tokens (30_encoding.md R118, R119); `none` is a malformed token. -/
def decodePlan (t : Word64) : Option Instr :=
  match (kindField t).toNat with
  | 0x0 => if t = 0x0000000000000000 then some .planEnd else none
  | 0x1 => some (.planSwap (aField t).toNat (bField t).toNat)
  | 0x2 => some (.planXor (aField t).toNat (bField t).toNat)
  | 0x3 => if t = 0x3000000000000000 then some .planComplete else none
  | _ => none

/-- The word of a table row: the bits of `w` that the row has, every higher bit 0. -/
def tableWord (nbits w : Nat) : Word64 := BitVec.ofNat 64 (w % 2 ^ nbits)

/-- A table word read as the block would read it: as a command word, since commands are what the
block fetches when it is IDLE; a word that is no command is read as a plan token. (The two formats
share the same 64-bit patterns: DEDUCED, safe: notes/assumptions/13.md.) -/
def decodeTableWord (nbits w : Nat) : Option Instr :=
  match decodeCommand (tableWord nbits w) with
  | .command i => some i
  | .illegal | .reserved => decodePlan (tableWord nbits w)

/-- A command word from its fields (30_encoding.md R111). -/
def commandWord (op : BitVec 8) (rd rs : SIdx) (a16 : BitVec 16) (imm32 : BitVec 32) : Word64 :=
  op ++ BitVec.ofFin (w := 4) rd ++ BitVec.ofFin (w := 4) rs ++ a16 ++ imm32

/-- A plan token from its fields (30_encoding.md R118). -/
def planWord (kind : BitVec 4) (a b : BitVec 30) : Word64 := kind ++ a ++ b

/-- The encoding of an instruction (30_encoding.md R112, R118, R122). -/
def encode : Instr → Word64
  | .nop => commandWord 0x00 0 0 0 0
  | .sync => commandWord 0x01 0 0 0 0
  | .csrr csr => commandWord 0x02 0 0 (BitVec.ofNat 16 csr) 0
  | .payLoad len => commandWord 0x10 0 0 0 (BitVec.ofNat 32 len)
  | .genInit s sys => commandWord 0x11 0 0 (BitVec.ofNat 16 s) (BitVec.ofNat 32 sys.toNat)
  | .genNext rd => commandWord 0x12 rd 0 0 0
  | .slcCreate rd s n => commandWord 0x20 rd 0 (BitVec.ofNat 16 s) (BitVec.ofNat 32 n)
  | .slcClone rd rs => commandWord 0x21 rd rs 0 0
  | .slcXor rd rs => commandWord 0x22 rd rs 0 0
  | .slcOut rs => commandWord 0x23 0 rs 0 0
  | .split rd i => commandWord 0x28 rd 0 0 (BitVec.ofNat 32 i)
  | .mix rd mask => commandWord 0x29 rd 0 mask 0
  | .solInit s tl => commandWord 0x30 0 0 (BitVec.ofNat 16 s) (BitVec.ofNat 32 tl)
  | .solRem rs => commandWord 0x31 0 rs 0 0
  | .solRemin => commandWord 0x32 0 0 0 0
  | .solTry => commandWord 0x33 0 0 0 0
  | .planEnd => planWord 0x0 0 0
  | .planSwap a b => planWord 0x1 (BitVec.ofNat 30 a) (BitVec.ofNat 30 b)
  | .planXor a b => planWord 0x2 (BitVec.ofNat 30 a) (BitVec.ofNat 30 b)
  | .planComplete => planWord 0x3 0 0

end Sys2Proof
end

