-- ==== Sys2Proof/Machine/Ready.lean ====
section
/-!
DEFINITION. When the head command of a port is ready (20_memory.md R88), and taking it.
-/

namespace Sys2Proof.Machine

/-- What a command needs of its port's queues to be started (20_memory.md R88). -/
structure Needs where
  /-- Bytes in DINQ. -/
  din : Nat
  /-- Free bytes of DOUTQ. -/
  dout : Nat
  /-- Free entries of RESPQ. -/
  resp : Nat
  deriving DecidableEq, Repr

/-- A command that is only answered with an ERR word (20_memory.md R88 (b), (c), (d)). -/
def Needs.answerOnly : Needs := ⟨0, 0, 1⟩

/-- The needs of a command whose checks pass (20_memory.md R88, R101; DEDUCED, safe: notes/assumptions/15.md). -/
def commandNeeds (i : Instr) (s : State) : Needs :=
  match i with
  | .sync => ⟨0, 0, 1⟩
  | .csrr _ => ⟨0, 0, 1⟩
  | .payLoad len => ⟨len, 0, 0⟩
  | .slcCreate _ sz n => ⟨imageLength n sz, 0, 0⟩
  | .slcOut rs => ⟨0, imageLength (s.reg rs).slice.n (s.reg rs).slice.s, 0⟩
  | .solRemin => ⟨imageLength s.sol.n.toNat s.sol.s.toNat, 0, 0⟩
  | .solTry => ⟨0, s.sol.tl.toNat, 1⟩
  | .nop => ⟨0, 0, 0⟩
  | .genInit _ _ => ⟨0, 0, 0⟩
  | .genNext _ => ⟨0, 0, 0⟩
  | .slcClone _ _ => ⟨0, 0, 0⟩
  | .slcXor _ _ => ⟨0, 0, 0⟩
  | .split _ _ => ⟨0, 0, 0⟩
  | .mix _ _ => ⟨0, 0, 0⟩
  | .solInit _ _ => ⟨0, 0, 0⟩
  | .solRem _ => ⟨0, 0, 0⟩
  | .planEnd => ⟨0, 0, 0⟩
  | .planSwap _ _ => ⟨0, 0, 0⟩
  | .planXor _ _ => ⟨0, 0, 0⟩
  | .planComplete => ⟨0, 0, 0⟩

/-- The needs of a command word in a state: an ERR word alone in HALTED and for every command that
faults (20_memory.md R88). -/
def State.needs (s : State) (w : Word64) : Needs :=
  match s.core with
  | .halted => Needs.answerOnly
  | .idle | .exec _ =>
    match decodeCommand w with
    | .command i => if (check i s).isSome then Needs.answerOnly else commandNeeds i s
    | .illegal | .reserved => Needs.answerOnly

/-- The free bytes of DOUTQ of port `p` (10_state.md R58). -/
def State.doutFree (s : State) (p : Nat) : Nat := s.params.doutDepth - (s.port p).doutq.length

/-- The free entries of RESPQ of port `p` (10_state.md R58). -/
def State.respFree (s : State) (p : Nat) : Nat := s.params.respDepth - (s.port p).respq.length

/-- The queues of port `p` meet the needs (20_memory.md R88 (b), (c), (d)). -/
def State.meets (s : State) (p : Nat) (d : Needs) : Bool :=
  decide (d.din ≤ (s.port p).dinq.length) &&
  decide (d.dout ≤ s.doutFree p) && decide (d.resp ≤ s.respFree p)

/-- No command is in progress (20_memory.md R88 (a)). -/
def State.free (s : State) : Bool :=
  match s.core with
  | .idle | .halted => true
  | .exec _ => false

/-- The head command of port `p`, when it is ready (20_memory.md R88). -/
def State.readyCommand (s : State) (p : Nat) : Option Word64 :=
  match (s.port p).cmdq with
  | [] => none
  | w :: _ => if s.free && decide (p < s.params.nports) && s.meets p (s.needs w) then some w else none

/-- The head command `w` of port `p` is removed from CMDQ and is the command being executed
(10_state.md R60, R62). -/
def State.take (s : State) (p : Nat) (w : Word64) : State :=
  { s.setPort p { s.port p with cmdq := (s.port p).cmdq.drop 1 } with
    cmdPort := p
    cmdWord := w }

end Sys2Proof.Machine
end

