-- ==== Sys2Proof/Machine/Env.lean ====
section
/-!
DEFINITION. The agents outside the core (00_scope.md R5) and what they see of it: the host ports
(10_state.md R58), the random-bit source (20_memory.md R97), the elimination collaborator (R98), the
reset input (70_reset_and_hazards.md R340). A move that is not possible changes nothing: the agent waits
(DESIGN CHOICE, safe: notes/assumptions/9.md).
-/

namespace Sys2Proof.Machine

/-- The next move: the first of the scripted ones, or, when none is left, the next of the free
environment (00_scope.md R6). -/
def State.nextMove (s : State) : Event × State :=
  match s.agenda with
  | e :: rest => (e, { s with agenda := rest })
  | [] => (Config.env s.envTick, { s with envTick := s.envTick + 1 })

/-- Port `p` exists (60_exceptions.md R314). -/
def State.hasPort (s : State) (p : Nat) : Bool := decide (p < s.params.nports)

/-- The host pushes a command word; a full queue makes it wait (10_state.md R58). -/
def State.pushCmd (s : State) (p : Nat) (w : Word64) : State :=
  if s.hasPort p && decide ((s.port p).cmdq.length < s.params.cmdDepth) then
    s.setPort p { s.port p with cmdq := (s.port p).cmdq ++ [w] }
  else s

/-- The host pushes an input byte. -/
def State.pushByte (s : State) (p : Nat) (b : Byte) : State :=
  if s.hasPort p && decide ((s.port p).dinq.length < s.params.dinDepth) then
    s.setPort p { s.port p with dinq := (s.port p).dinq ++ [b] }
  else s

/-- The host pops an output byte; there is none to pop from an empty queue. -/
def State.popByte (s : State) (p : Nat) : State :=
  s.setPort p { s.port p with doutq := (s.port p).doutq.drop 1 }

/-- The host pops a response word. -/
def State.popResp (s : State) (p : Nat) : State :=
  s.setPort p { s.port p with respq := (s.port p).respq.drop 1 }

/-- How many bytes of the outstanding RngDraw have not arrived (20_memory.md R97); 0 when none is
outstanding. -/
def State.rngWanted (s : State) : Nat :=
  match s.core with
  | .exec .drawing => s.drawBytes - s.rngIn.length
  | .exec .planning | .idle | .halted => 0

/-- The random-bit source supplies the next byte of the outstanding request; without a request it
supplies none (20_memory.md R97). -/
def State.supplyByte (s : State) (b : Byte) : State :=
  if 0 < s.rngWanted then { s with rngIn := s.rngIn ++ [b] } else s

/-- The collaborator supplies the token of the outstanding PlanNext; outside a session, or when the
token is there already, it supplies none (20_memory.md R98). -/
def State.supplyToken (s : State) (t : Word64) : State :=
  if s.core = .exec .planning ∧ s.planIn = none then { s with planIn := some t } else s

/-- What PlanStart() presents to the collaborator while a session is open (20_memory.md R98): SOL_N and
the coefficient rows with their current contents, as many as SOL_ROWS; no data row. -/
def State.presented (s : State) : Option (Word32 × List (List Bool)) :=
  if s.plan.active then some (s.sol.n, s.sol.rows.map Slice.coef) else none

end Sys2Proof.Machine
end

