-- ==== Sys2Proof/Machine/Fetch.lean ====
section
/-!
DEFINITION. Where the core finds what it executes next (10_state.md R60, R62): the head of a command
queue when it is free, the PLAN port inside a session, the command in progress during a RngDraw
hold. And placing a word there.
-/

namespace Sys2Proof.Machine

/-- The outcome of a turn of the core up to the execution. -/
inductive Fetched where
  /-- Nothing to execute: no ready command at the port offered, or a hold on PlanNext goes on. -/
  | hold
  /-- `i` is executed in state `t`. -/
  | run (i : Instr) (t : State)
  /-- A word that is no instruction has been answered with a fault or, in HALTED, with an ERR word. -/
  | answered (t : State)
  deriving DecidableEq, Repr

/-- A command word that does not decode: a fault of the word (30_encoding.md R113, R114), but in HALTED
only an ERR word (60_exceptions.md R305). -/
def State.rejectWord (s : State) (code : FaultCode) : State :=
  match s.core with
  | .halted => s.answerHalted
  | .idle | .exec _ => s.raise ⟨code, 0⟩

/-- A command word taken from its queue, decoded (30_encoding.md R112 to R114). -/
def fetchCommand (w : Word64) (t : State) : Fetched :=
  match decodeCommand w with
  | .command i => .run i t
  | .illegal => .answered (t.rejectWord .illegal)
  | .reserved => .answered (t.rejectWord .reserved)

/-- The token of the outstanding PlanNext, once it has arrived (44_solver.md R253); a malformed token
is a fault whose FAULT_INFO is its ordinal (30_encoding.md R119). -/
def fetchToken (s : State) : Fetched :=
  match s.planIn with
  | none => .hold
  | some t =>
    match decodePlan t with
    | some i => .run i { s with planIn := none }
    | none => .answered (({ s with planIn := none } : State).raise ⟨.plan, s.plan.k.toNat⟩)

/-- The core's turn, offered port `p` (20_memory.md R85 to R88): a command in progress goes on; a free
core takes the head command of port `p` if it is ready (DESIGN CHOICE, safe: notes/assumptions/24.md). -/
def fetch (p : Nat) (s : State) : Fetched :=
  match s.core with
  | .exec .planning => fetchToken s
  | .exec .drawing => fetchCommand s.cmdWord s
  | .idle | .halted =>
    match s.readyCommand p with
    | none => .hold
    | some w => fetchCommand w (s.take p w)

/-- The queues of a port with a command word put first and its needs met: missing input bytes are
zeros, output that has no room left is taken away as a host would. -/
def Port.place (q : Port) (params : Params) (w : Word64) (d : Needs) : Port where
  cmdq := if q.cmdq.length < params.cmdDepth then w :: q.cmdq else [w]
  dinq := q.dinq ++ List.replicate (d.din - q.dinq.length) 0
  doutq := if q.doutq.length + d.dout ≤ params.doutDepth then q.doutq else []
  respq := if q.respq.length + d.resp ≤ params.respDepth then q.respq else []

/-- The state in which the very next move is the core's and it is free to take a command from port 0,
whose head is `w`. A command in progress is abandoned. -/
def State.placeCommand (s : State) (w : Word64) : State :=
  let t : State := if s.free then s else { s.closeSession with rngIn := [] }
  { t.setPort 0 ((t.port 0).place t.params w (t.needs w)) with agenda := .core 0 :: t.agenda }

/-- The state in which the very next move is the core's and it reads the token `w` of a plan session. -/
def State.placeToken (s : State) (w : Word64) : State :=
  { s with
    core := .exec .planning
    plan := { s.plan with active := true }
    planIn := some w
    agenda := .core 0 :: s.agenda }

/-- A word that only a plan session can read: no command, but a plan token. -/
def onlyToken (w : Word64) : Bool :=
  match decodeCommand w with
  | .command _ => false
  | .illegal | .reserved => (decodePlan w).isSome

/-- A word placed where the core fetches next: as a token inside a plan session or when it is nothing
else, else as a command (DESIGN CHOICE, safe: notes/assumptions/14.md). -/
def State.placeWord (s : State) (w : Word64) : State :=
  if s.core = .exec .planning ∨ onlyToken w then s.placeToken w else s.placeCommand w

end Sys2Proof.Machine
end

