-- ==== Sys2Proof/Machine/Step.lean ====
section
/-!
DEFINITION. One step: one move of one agent (00_scope.md R5; DESIGN CHOICE, safe: notes/assumptions/8.md).
-/

namespace Sys2Proof.Machine

/-- The core's turn (20_memory.md R85): what it fetches, it executes whole, up to its next hold. -/
def coreTurn (p : Nat) (s : State) : Host.Outcome State Fault Refusal :=
  match fetch p s with
  | .hold => .next s
  | .run i t => exec i t
  | .answered t => .next t

/-- The move `e` made in state `s`. -/
def move (e : Event) (s : State) : Host.Outcome State Fault Refusal :=
  match e with
  | .core p => coreTurn p s
  | .pushCmd p w => .next (s.pushCmd p w)
  | .pushByte p b => .next (s.pushByte p b)
  | .popByte p => .next (s.popByte p)
  | .popResp p => .next (s.popResp p)
  | .rng b => .next (s.supplyByte b)
  | .plan t => .next (s.supplyToken t)
  | .rst => .next s.hardReset

/-- One step of the machine: the next move of the agents. -/
def step (s : State) : Host.Outcome State Fault Refusal := move s.nextMove.1 s.nextMove.2

/-- `s` with a table word placed where step fetches its next instruction. -/
def State.withFetchWord (s : State) (nbits w : Nat) : State := s.placeWord (tableWord nbits w)

end Sys2Proof.Machine
end

