-- ==== Sys2Proof/Machine/PackedBuffer.lean ====
section
/-!
DEFINITION. The physical form of a packed buffer (40_packed_buffer.md R150 to R157): words of `w`
bits with zero padding. The state holds the unpacked elements instead, which R158 allows; these
definitions are what that choice is measured against.
-/

namespace Sys2Proof.Machine

/-- A packed buffer (40_packed_buffer.md R150): its logical length in bits and its physical words.
The logical length of a byte buffer of `s` bytes is `8 s` bits. -/
structure Packed (w : Nat) where
  /-- The logical length in bits. -/
  len : Nat
  /-- The physical words. -/
  words : List (BitVec w)
  deriving DecidableEq, Repr

/-- Bit `j` of the physical storage: word `j div W`, bit `j mod W` (40_packed_buffer.md R150). -/
def Packed.bit {w : Nat} (b : Packed w) (j : Nat) : Bool := (b.words.getD (j / w) 0).getLsbD (j % w)

/-- Physical word `j` of a bit vector, its padding 0 (40_packed_buffer.md R151). -/
def packWord (w : Nat) (c : List Bool) (j : Nat) : BitVec w :=
  BitVec.ofNat w (natOfBits ((List.range w).map fun t => c.getD (w * j + t) false))

/-- Pack from bits (40_packed_buffer.md R151), into `ceil(L / W)` words (R150). -/
def Packed.ofBits (w : Nat) (c : List Bool) : Packed w :=
  ⟨c.length, (List.range (ceilDiv c.length w)).map (packWord w c)⟩

/-- The bits of a byte sequence: bit `t` of byte `k` at position `8 k + t` (40_packed_buffer.md R152). -/
def bitsOfBytes (d : List Byte) : List Bool :=
  d.flatMap fun b => (List.range 8).map b.getLsbD

/-- Pack from bytes (40_packed_buffer.md R152). -/
def Packed.ofBytes (w : Nat) (d : List Byte) : Packed w := Packed.ofBits w (bitsOfBytes d)

/-- Unpack to bits: the logical elements, never the padding (40_packed_buffer.md R153). -/
def Packed.toBits {w : Nat} (b : Packed w) : List Bool := (List.range b.len).map b.bit

/-- Unpack to bytes (40_packed_buffer.md R153). -/
def Packed.toBytes {w : Nat} (b : Packed w) : List Byte :=
  (List.range (b.len / 8)).map fun k =>
    BitVec.ofNat 8 (natOfBits ((List.range 8).map fun t => b.bit (8 * k + t)))

/-- Clone (40_packed_buffer.md R154): the same length and the same words. -/
def Packed.clone {w : Nat} (b : Packed w) : Packed w := ⟨b.len, b.words⟩

/-- XorInto(A, B) (40_packed_buffer.md R155): the new A, or `none` where the physical shapes differ
(F_SHAPE). -/
def Packed.xorInto {w : Nat} (a b : Packed w) : Option (Packed w) :=
  if a.words.length = b.words.length then
    some ⟨a.len, List.zipWith (· ^^^ ·) a.words b.words⟩
  else none

/-- The padding is zero: every physical bit past the logical length (40_packed_buffer.md R156). -/
def Packed.PaddingZero {w : Nat} (b : Packed w) : Prop :=
  ∀ j, b.len ≤ j → j < b.words.length * w → b.bit j = false

end Sys2Proof.Machine
end

