-- ==== Sys2Proof/Safety.lean ====
section
/-!
DEFINITION. The terms of the claims: the invariant of the machine, the slice invariant
(10_state.md R61), the elimination collaborator as a parameter (44_solver.md R258), a plan session
run by its tokens, and which state a command leaves alone.
-/

namespace Sys2Proof.Machine

/-! ### The invariant: what every state reached from reset satisfies -/

/-- Slice registers hold slices within the sizes of the block (10_state.md R31). -/
abbrev State.RegsOk (s : State) : Prop :=
  ∀ k : SIdx, (s.reg k).valid = true →
    (s.reg k).slice.n ≤ s.params.nmax ∧ (s.reg k).slice.s ≤ s.params.smax

/-- Payload memory is in canonical form, lies below PMAX, and holds every byte of the payload
(10_state.md R33, R34). -/
abbrev State.PayloadOk (s : State) : Prop :=
  Memory.wf s.pmem ∧ (∀ e ∈ s.pmem, e.1 < s.params.pmax) ∧
  (∀ a < s.payloadLen.toNat, (Memory.read s.pmem a).isSome = true) ∧
  s.payloadLen.toNat ≤ s.params.pmax ∧ (s.payValid = false → s.payloadLen = 0)

/-- The generator's fields are in the ranges of 10_state.md R35, and an instance fits the payload
(43_generator.md R221). -/
abbrev State.GenOk (s : State) : Prop :=
  s.gen.s.toNat ≤ s.params.smax ∧ s.gen.n.toNat ≤ s.params.nmax ∧
  s.gen.sysPos.toNat ≤ s.gen.n.toNat ∧
  (s.gen.ready = true →
    s.payValid = true ∧ 1 ≤ s.gen.s.toNat ∧
    s.gen.n.toNat = ceilDiv s.payloadLen.toNat s.gen.s.toNat)

/-- The solver's fields are in the ranges of 10_state.md R37; every row has the solver's shape
(44_solver.md R251, R252); UNINIT has no rows and is not solved (10_state.md R38). -/
abbrev State.SolOk (s : State) : Prop :=
  s.sol.s.toNat ≤ s.params.smax ∧ s.sol.n.toNat ≤ s.params.nmax ∧ s.solRows ≤ s.params.rmax ∧
  (∀ x ∈ s.sol.rows, x.n = s.sol.n.toNat ∧ x.s = s.sol.s.toNat) ∧
  (s.sol.ready = true → 1 ≤ s.sol.s.toNat ∧ s.sol.n.toNat = ceilDiv s.sol.tl.toNat s.sol.s.toNat) ∧
  (s.sol.ready = false →
    s.sol.rows = [] ∧ s.sol.tl = 0 ∧ s.sol.solved = false ∧ s.sol.lastTryPresent = false)

/-- The queues are in canonical form, belong to ports of the block, and respect their capacities
(10_state.md R58, 60_exceptions.md R314). -/
abbrev State.QueuesOk (s : State) : Prop :=
  PortMap.wf s.ports ∧
  ∀ e ∈ s.ports, e.1 < s.params.nports ∧
    e.2.cmdq.length ≤ s.params.cmdDepth ∧ e.2.dinq.length ≤ s.params.dinDepth ∧
    e.2.doutq.length ≤ s.params.doutDepth ∧ e.2.respq.length ≤ s.params.respDepth

/-- PLAN_ACTIVE is 1 exactly inside a session (10_state.md R59); a session has the rows and the queue
space its end needs (44_solver.md R253, 20_memory.md R88). -/
abbrev State.SessionOk (s : State) : Prop :=
  (s.plan.active = true ↔ s.core = .exec .planning) ∧
  (s.planIn ≠ none → s.core = .exec .planning) ∧
  (s.core = .exec .planning →
    s.sol.ready = true ∧ s.sol.n.toNat ≤ s.solRows ∧ decodeCommand s.cmdWord = .command .solTry ∧
    s.cmdPort < s.params.nports ∧ s.here.respq.length + 1 ≤ s.params.respDepth ∧
    s.here.doutq.length + s.sol.tl.toNat ≤ s.params.doutDepth)

/-- Only a GEN.NEXT in its random phase holds on RngDraw (10_state.md R60), and no more bytes are taken
from the random source than its draw asked for (20_memory.md R97). -/
abbrev State.DrawOk (s : State) : Prop :=
  (s.core = .exec .drawing →
    s.gen.ready = true ∧ s.genInSys = false ∧ s.cmdPort < s.params.nports ∧
    (∃ rd, decodeCommand s.cmdWord = .command (.genNext rd)) ∧ s.rngIn.length ≤ s.drawBytes) ∧
  (s.core ≠ .exec .drawing → s.rngIn = [])

/-- FAULT is 1 exactly in HALTED; with no fault the record is 0, else its code is one of
60_exceptions.md R301. -/
abbrev State.FaultOk (s : State) : Prop :=
  (s.fault.fault = true ↔ s.core = .halted) ∧
  (s.fault.fault = false → s.fault = ⟨false, 0, 0, 0, 0⟩) ∧
  (s.fault.fault = true → 0x01 ≤ s.fault.cause ∧ s.fault.cause ≤ 0x0D)

/-- The invariant of the machine. -/
structure State.Inv (s : State) : Prop where
  params : s.params.Ok
  regs : s.RegsOk
  payload : s.PayloadOk
  gen : s.GenOk
  sol : s.SolOk
  queues : s.QueuesOk
  session : s.SessionOk
  draw : s.DrawOk
  fault : s.FaultOk

/-! ### Payloads, segments and the slice invariant -/

/-- Seg(P, S, i) of a payload `P` (42_split_mix.md R200, 10_state.md R61). -/
def segmentOf (payload : List Byte) (sz i : Nat) : List Byte :=
  (List.range sz).map fun k => payload.getD (i * sz + k) 0

/-- The XOR of the segments a coefficient vector selects; of none, zero bytes (10_state.md R61). -/
def combine (payload : List Byte) (sz : Nat) (coef : List Bool) : List Byte :=
  (selected coef).foldl (fun acc i => xorBytes acc (segmentOf payload sz i)) (List.replicate sz 0)

/-- Valid(P, S, x), the slice invariant of 10_state.md R61. -/
def Slice.ValidFor (payload : List Byte) (sz : Nat) (x : Slice) : Prop :=
  x.n = ceilDiv payload.length sz ∧ x.s = sz ∧ x.data = combine payload sz x.coef

/-- The payload of the generator: the bytes PMEM[0 .. PAYLOAD_LEN-1] (10_state.md R33). -/
def State.payload (s : State) : List Byte :=
  (List.range s.payloadLen.toNat).map fun a => (Memory.read s.pmem a).getD 0

/-! ### Runs and the fairness of the arbiter (20_memory.md R87, R89) -/

/-- `run` is a run of the machine under the schedule `moves` (00_scope.md R6): each state follows from
the one before by the agents' next move. What a state says of the moves to come is free. -/
def IsRun (moves : Nat → Event) (run : Nat → State) : Prop :=
  ∀ k, ∃ u : State, u = { run k with agenda := u.agenda, envTick := u.envTick } ∧
    move (moves k) u = .next (run (k + 1))

/-- Weak fairness of arbitration (20_memory.md R89): no port has a ready head command for ever without
the core being given its turn on that port. No port has priority. -/
def WeaklyFair (moves : Nat → Event) (run : Nat → State) : Prop :=
  ∀ p k, ∃ j, k ≤ j ∧ (moves j = .core p ∨ (run j).readyCommand p = none)

/-! ### The elimination collaborator (44_solver.md R258) -/

/-- A step of a plan; its row indices are the 30-bit fields of its token (30_encoding.md R118). -/
inductive RowStep where
  /-- SWAP a, b (44_solver.md R254). -/
  | swap (a b : BitVec 30)
  /-- XOR a, b (R255). -/
  | xor (a b : BitVec 30)
  deriving DecidableEq, Repr

/-- The plan token of a step. -/
def RowStep.token : RowStep → Instr
  | .swap a b => .planSwap a.toNat b.toNat
  | .xor a b => .planXor a.toNat b.toNat

/-- A step applied to a row file. -/
def RowStep.apply (rows : List Slice) : RowStep → List Slice
  | .swap a b => applySwap a.toNat b.toNat rows
  | .xor a b => applyXor a.toNat b.toNat rows

/-- How a plan ends (44_solver.md R258): with COMPLETE, with END, or with a malformed token. -/
inductive Terminator where
  /-- COMPLETE (R256). -/
  | complete
  /-- END (R257). -/
  | absent
  /-- A token that is malformed (30_encoding.md R119). -/
  | malformed (t : { t : Word64 // decodePlan t = none })
  deriving DecidableEq, Repr

/-- The token that ends a plan. -/
def Terminator.word : Terminator → Word64
  | .complete => encode .planComplete
  | .absent => encode .planEnd
  | .malformed t => t.val

/-- A plan: finitely many steps, then its end (44_solver.md R258). -/
structure Plan where
  /-- The steps. -/
  steps : List RowStep
  /-- The end. -/
  last : Terminator
  deriving DecidableEq, Repr

/-- The tokens of a plan on the PLAN port. -/
def Plan.words (plan : Plan) : List Word64 := plan.steps.map (encode ·.token) ++ [plan.last.word]

/-- The row file after the steps of a plan. -/
def Plan.apply (plan : Plan) (rows : List Slice) : List Slice := plan.steps.foldl RowStep.apply rows

/-- A collaborator ELIM (44_solver.md R258): from SOL_N and the coefficient rows of the snapshot to its
plan. -/
abbrev Elim := Nat → List (List Bool) → Plan

/-- The tokens given one after another, each when the core waits for it, the core taking its turn on
each (20_memory.md R98). -/
def runTokens : List Word64 → State → Host.Outcome State Fault Refusal
  | [], s => .next s
  | w :: rest, s =>
    match coreTurn s.cmdPort (s.supplyToken w) with
    | .next t => runTokens rest t
    | .fault r => .fault r
    | .refused r => .refused r

/-- SOL.TRY with the collaborator `elim`: a session, if one is opened, gets the plan that `elim` makes of
what PlanStart() presents (44_solver.md R253, R258). -/
def State.tryWith (s : State) (elim : Elim) : Host.Outcome State Fault Refusal :=
  match exec .solTry s with
  | .next t =>
    match t.presented with
    | some (n, rows) => runTokens (elim n.toNat rows).words t
    | none => .next t
  | .fault r => .fault r
  | .refused r => .refused r

/-- The XOR of the coefficient vectors of the rows a selection takes. -/
def combineRows (n : Nat) (rows : List Slice) (sel : List Bool) : List Bool :=
  (selected sel).foldl (fun acc r => xorBits acc (rowAt rows r).coef) (List.replicate n false)

/-- The coefficient rows have rank `n` over GF(2): every unit vector is the XOR of some of them
(DEDUCED, safe: notes/assumptions/25.md). -/
def FullRank (n : Nat) (rows : List Slice) : Prop :=
  ∀ i < n, ∃ sel : List Bool, sel.length = rows.length ∧ combineRows n rows sel = unitVector n i

/-- What ElimCorrect asks of the collaborator for one snapshot: if the plan ends in COMPLETE, its steps
leave `C[i] = e_i` for every `i < N`; and it ends in COMPLETE if the rank of the rows is N. -/
def ElimCorrectAt (elim : Elim) (n : Nat) (rows : List Slice) : Prop :=
  ((elim n (rows.map Slice.coef)).last = .complete →
    ∀ i < n, (rowAt ((elim n (rows.map Slice.coef)).apply rows) i).coef = unitVector n i) ∧
  (FullRank n rows → (elim n (rows.map Slice.coef)).last = .complete)

/-- ElimCorrect (44_solver.md R258): so for every snapshot a session can open on. -/
def ElimCorrect (elim : Elim) : Prop :=
  ∀ (n : Nat) (rows : List Slice), n ≤ rows.length → (∀ x ∈ rows, x.n = n) →
    ElimCorrectAt elim n rows

/-! ### What is left alone -/

/-- Every byte of payload memory reads as before. -/
def State.SameMemory (s t : State) : Prop := ∀ a, Memory.read t.pmem a = Memory.read s.pmem a

/-- Every slice register but `k` is as before. -/
def State.SameRegsBut (s t : State) (k : SIdx) : Prop := ∀ j, j ≠ k → t.reg j = s.reg j

/-- The queues of the port of the command are now `q`, those of every other port are as before. -/
def State.OnlyPortNow (s t : State) (q : Port) : Prop :=
  t.port s.cmdPort = q ∧ ∀ p, p ≠ s.cmdPort → t.port p = s.port p

/-- All that has happened is that the port of the command was answered with `w`. -/
def State.OnlyAnswered (s t : State) (w : Word64) : Prop :=
  t = { s with ports := t.ports } ∧
  s.OnlyPortNow t { s.here with respq := s.here.respq ++ [w] }

/-- All that has happened is the fault entry of 60_exceptions.md R302 for code `code` and FAULT_INFO
`info`. -/
def State.OnlyFaulted (s t : State) (code : BitVec 8) (info : Nat) : Prop :=
  t = { s with
    fault := ⟨true, code, BitVec.ofNat 32 s.cmdPort, s.cmdWord, BitVec.ofNat 32 info⟩
    core := .halted
    plan := { s.plan with active := false }
    planIn := none
    ports := t.ports } ∧
  s.OnlyPortNow t
    { s.here with respq := s.here.respq ++ [0xFF00000000000000 ||| code.setWidth 64] }

/-- The outcome is a next state in which all that has happened is that fault entry. -/
def State.FaultsWith (s : State) (o : Host.Outcome State Fault Refusal) (code : BitVec 8) (info : Nat) :
    Prop :=
  ∃ t, o = .next t ∧ s.OnlyFaulted t code info

/-- The bytes PMEM[0 .. PAYLOAD_LEN-1] have been written (10_state.md R33). -/
abbrev State.PayloadThere (s : State) : Prop :=
  ∀ a < s.payloadLen.toNat, (Memory.read s.pmem a).isSome = true

/-- The slice registers an instruction writes (10_state.md R31): its `rd`. -/
def destinations : Instr → List SIdx
  | .genNext rd | .slcCreate rd _ _ | .slcClone rd _ | .slcXor rd _ | .split rd _ | .mix rd _ => [rd]
  | .nop | .sync | .csrr _ | .payLoad _ | .genInit _ _ | .slcOut _ | .solInit _ _ | .solRem _
  | .solRemin | .solTry | .planEnd | .planSwap _ _ | .planXor _ _ | .planComplete => []

/-- The slice registers an instruction reads (10_state.md R32): its `rs`, the `rd` of SLC.XOR, the
registers of a MIX mask. -/
def sources : Instr → List SIdx
  | .slcClone _ rs | .slcOut rs | .solRem rs => [rs]
  | .slcXor rd rs => [rd, rs]
  | .mix _ mask => maskRegs mask
  | .nop | .sync | .csrr _ | .payLoad _ | .genInit _ _ | .genNext _ | .slcCreate _ _ _ | .split _ _
  | .solInit _ _ | .solRemin | .solTry | .planEnd | .planSwap _ _ | .planXor _ _ | .planComplete => []

/-- The instructions that write the generator state (10_state.md R35). -/
def writesGenerator : Instr → Bool
  | .payLoad _ | .genInit _ _ | .genNext _ => true
  | .nop | .sync | .csrr _ | .slcCreate _ _ _ | .slcClone _ _ | .slcXor _ _ | .slcOut _ | .split _ _
  | .mix _ _ | .solInit _ _ | .solRem _ | .solRemin | .solTry | .planEnd | .planSwap _ _
  | .planXor _ _ | .planComplete => false

/-- The instructions that write the row file (10_state.md R37). -/
def writesRowFile : Instr → Bool
  | .solInit _ _ | .solRem _ | .solRemin | .planSwap _ _ | .planXor _ _ => true
  | .nop | .sync | .csrr _ | .payLoad _ | .genInit _ _ | .genNext _ | .slcCreate _ _ _
  | .slcClone _ _ | .slcXor _ _ | .slcOut _ | .split _ _ | .mix _ _ | .solTry | .planEnd
  | .planComplete => false

end Sys2Proof.Machine
end

