-- ==== Sys2Proof/Certificates/Slice0/Obligations.lean ====
section
/-!
DEFINITION. The statements for the provers, each with the rule of the spec it formalises.
-/

open Sys2Proof Sys2Proof.Machine

/-! ### Encoding (30_encoding.md) -/

/-- Every well-formed instruction is what the decoder of its port reads from its encoding
(30_encoding.md R111, R112, R118). -/
def Obligations.DecodeAndEncodeAgree : Prop :=
  ∀ i : Instr, i.wellFormed = true →
    (i.isPlan = false → decodeCommand (encode i) = .command i) ∧
    (i.isPlan = true → decodePlan (encode i) = some i)

/-- A word that decodes has one meaning: it is the encoding of what it decodes to, and of no other
bits (30_encoding.md R113, R119). -/
def Obligations.EachWordHasOneMeaning : Prop :=
  (∀ (w : Word64) (i : Instr), decodeCommand w = .command i →
    i.wellFormed = true ∧ i.isPlan = false ∧ encode i = w) ∧
  (∀ (t : Word64) (i : Instr), decodePlan t = some i →
    i.wellFormed = true ∧ i.isPlan = true ∧ encode i = t)

/-- Which words the decoders refuse, and by which name: an opcode outside the map is illegal (R114); a
legal opcode whose word encodes no command is reserved (R113); a token is malformed when its kind is
reserved or END or COMPLETE has a nonzero operand bit (R119). -/
def Obligations.RefusedWordsAreTheSpecs : Prop :=
  (∀ w : Word64, decodeCommand w = .illegal ↔
    (w.extractLsb' 56 8).toNat ∉
      [0x00, 0x01, 0x02, 0x10, 0x11, 0x12, 0x20, 0x21, 0x22, 0x23, 0x28, 0x29, 0x30, 0x31, 0x32, 0x33]) ∧
  (∀ w : Word64, decodeCommand w = .reserved ↔
    (w.extractLsb' 56 8).toNat ∈
      [0x00, 0x01, 0x02, 0x10, 0x11, 0x12, 0x20, 0x21, 0x22, 0x23, 0x28, 0x29, 0x30, 0x31, 0x32, 0x33] ∧
    ∀ i : Instr, i.wellFormed = true → i.isPlan = false → encode i ≠ w) ∧
  (∀ t : Word64, decodePlan t = none ↔
    4 ≤ (t.extractLsb' 60 4).toNat ∨
    ((t.extractLsb' 60 4).toNat = 0 ∧ t.extractLsb' 0 60 ≠ 0) ∨
    ((t.extractLsb' 60 4).toNat = 3 ∧ t.extractLsb' 0 60 ≠ 0))

/-- The encoding examples of 30_encoding.md R124 decode to the instructions they stand for. -/
def Obligations.ExampleWordsDecode : Prop :=
  decodeCommand 0x2212000000000000 = .command (.slcXor 1 2) ∧
  decodeCommand 0x2900000600000000 = .command (.mix 0 0x0006) ∧
  decodeCommand 0x1100000100000001 = .command (.genInit 1 true) ∧
  decodeCommand 0x3000000100000004 = .command (.solInit 1 4) ∧
  decodeCommand 0x0200001300000000 = .command (.csrr 0x013) ∧
  decodeCommand 0x1000000000000004 = .command (.payLoad 4) ∧
  decodeCommand 0x2830000000000002 = .command (.split 3 2) ∧
  decodeCommand 0x2000000100000002 = .command (.slcCreate 0 1 2) ∧
  decodeCommand 0x2305000000000000 = .command (.slcOut 5) ∧
  decodePlan 0x1000000000000001 = some (.planSwap 0 1) ∧
  decodePlan 0x2000000000000001 = some (.planXor 0 1) ∧
  decodePlan 0x2000000040000000 = some (.planXor 1 0)

/-! ### What a step runs -/

/-- When the next move is the core's, step is exec of the instruction found where the core looks:
the decoded head of the command queue of the port offered, when it is ready, which leaves the queue
(10_state.md R60, R62; 20_memory.md R88); the decoded token on the PLAN port of an open session
(20_memory.md R98); the command in progress, during a hold on RngDraw (43_generator.md R223).
The model's choice: notes/assumptions/8.md, notes/assumptions/16.md (the size of a step, the latches). -/
def Obligations.StepRunsTheFetchedInstruction : Prop :=
  (∀ (s u : State) (p : Nat) (w : Word64) (i : Instr),
    s.nextMove = (.core p, u) → u.readyCommand p = some w → decodeCommand w = .command i →
    ∃ t, step s = exec i t ∧
      t = { u with ports := t.ports, cmdPort := p, cmdWord := w } ∧
      (u.port p).cmdq.head? = some w ∧
      t.port p = { u.port p with cmdq := (u.port p).cmdq.tail } ∧
      (∀ q, q ≠ p → t.port q = u.port q)) ∧
  (∀ (s u : State) (p : Nat) (w : Word64) (i : Instr),
    s.nextMove = (.core p, u) → u.core = .exec .planning → u.planIn = some w →
    decodePlan w = some i → step s = exec i { u with planIn := none }) ∧
  (∀ (s u : State) (p : Nat) (i : Instr),
    s.nextMove = (.core p, u) → u.core = .exec .drawing → decodeCommand u.cmdWord = .command i →
    step s = exec i u)

/-- A core that is offered no ready command, or that waits for a plan token, changes nothing in its
turn (20_memory.md R88, R98). The model's choice: notes/assumptions/9.md (a wait is a step). -/
def Obligations.StepHolds : Prop :=
  (∀ (s u : State) (p : Nat),
    s.nextMove = (.core p, u) → u.core = .idle ∨ u.core = .halted → u.readyCommand p = none →
    step s = .next u) ∧
  (∀ (s u : State) (p : Nat),
    s.nextMove = (.core p, u) → u.core = .exec .planning → u.planIn = none → step s = .next u)

/-- Arbitration (20_memory.md R87, R89): under a weakly fair schedule a port whose head command stays ready
is eventually served, whatever the other agents do: the core takes that very command from its queue,
unless it stops being ready before. Every sequence of steps is a run under the schedule of its moves.
Fairness is a premise, not built into the machine: notes/assumptions/12.md. -/
def Obligations.FairSchedulesServeReadyCommands : Prop :=
  (∀ run : Nat → State, (∀ k, step (run k) = .next (run (k + 1))) →
    IsRun (fun k => (run k).nextMove.1) run) ∧
  (∀ (moves : Nat → Event) (run : Nat → State) (p k : Nat) (w : Word64),
    IsRun moves run → WeaklyFair moves run → (run k).readyCommand p = some w →
    ∃ j, k ≤ j ∧ ((run j).readyCommand p = none ∨
      (moves j = .core p ∧ (run j).readyCommand p = some w ∧
        (run (j + 1)).cmdPort = p ∧ (run (j + 1)).cmdWord = w ∧
        ((run (j + 1)).port p).cmdq = ((run j).port p).cmdq.tail)))

/-- A ready word of no command raises F_ILLEGAL or F_RESERVED (30_encoding.md R113, R114), a malformed
plan token raises F_PLAN with its ordinal and the steps already applied stay (60_exceptions.md R304):
the fault entry of R302 and nothing else. -/
def Obligations.BadWordsFault : Prop :=
  (∀ (s u : State) (p : Nat) (w : Word64),
    s.nextMove = (.core p, u) → u.core = .idle → u.readyCommand p = some w →
    (decodeCommand w = .illegal → (u.take p w).FaultsWith (step s) 0x01 0) ∧
    (decodeCommand w = .reserved → (u.take p w).FaultsWith (step s) 0x02 0)) ∧
  (∀ (s u : State) (p : Nat) (w : Word64),
    s.nextMove = (.core p, u) → u.core = .exec .planning → u.planIn = some w →
    decodePlan w = none → u.FaultsWith (step s) 0x0C u.plan.k.toNat)

/-- When the head command of a port is ready (20_memory.md R88), with the sizes of R101 written out; the
reading of R88 is DEDUCED in notes/assumptions/15.md. Only the head of CMDQ of a port of the block is
ever ready, and only when no command is in progress. In HALTED, for a word that is no command, and for
a command that faults, one free entry of RESPQ is all it needs. Any other command needs its input
bytes in DINQ and room in DOUTQ and RESPQ for what it may push; so a command whose input is larger than
DIN_DEPTH or whose output is larger than DOUT_DEPTH is never ready (70_reset_and_hazards.md R351). -/
def Obligations.CommandsAreReadyExactlyWhenTheirQueuesFit : Prop :=
  (∀ (s : State) (p : Nat) (w : Word64), s.readyCommand p = some w →
    (s.port p).cmdq.head? = some w ∧ p < s.params.nports ∧ (s.core = .idle ∨ s.core = .halted)) ∧
  (∀ (s : State) (p : Nat) (w : Word64), (s.port p).cmdq.head? = some w → p < s.params.nports →
    (s.core = .halted → (s.readyCommand p = some w ↔
      1 ≤ s.params.respDepth - (s.port p).respq.length)) ∧
    (s.core = .idle → decodeCommand w = .illegal ∨ decodeCommand w = .reserved →
      (s.readyCommand p = some w ↔ 1 ≤ s.params.respDepth - (s.port p).respq.length)) ∧
    (∀ i : Instr, s.core = .idle → decodeCommand w = .command i →
      (check i s ≠ none →
        (s.readyCommand p = some w ↔ 1 ≤ s.params.respDepth - (s.port p).respq.length)) ∧
      (check i s = none →
        (∀ len, i = .payLoad len →
          (s.readyCommand p = some w ↔ len ≤ (s.port p).dinq.length)) ∧
        (∀ rd sz n, i = .slcCreate rd sz n →
          (s.readyCommand p = some w ↔ ceilDiv n 8 + sz ≤ (s.port p).dinq.length)) ∧
        (i = .solRemin →
          (s.readyCommand p = some w ↔
            ceilDiv s.sol.n.toNat 8 + s.sol.s.toNat ≤ (s.port p).dinq.length)) ∧
        (∀ rs, i = .slcOut rs →
          (s.readyCommand p = some w ↔ ceilDiv (s.reg rs).slice.n 8 + (s.reg rs).slice.s ≤
            s.params.doutDepth - (s.port p).doutq.length)) ∧
        (i = .solTry →
          (s.readyCommand p = some w ↔
            s.sol.tl.toNat ≤ s.params.doutDepth - (s.port p).doutq.length ∧
            1 ≤ s.params.respDepth - (s.port p).respq.length)) ∧
        (i = .sync ∨ (∃ c, i = .csrr c) →
          (s.readyCommand p = some w ↔ 1 ≤ s.params.respDepth - (s.port p).respq.length)) ∧
        (i = .nop ∨ (∃ sz sys, i = .genInit sz sys) ∨ (∃ rd, i = .genNext rd) ∨
          (∃ rd rs, i = .slcClone rd rs ∨ i = .slcXor rd rs) ∨ (∃ rd j, i = .split rd j) ∨
          (∃ rd mask, i = .mix rd mask) ∨ (∃ sz tl, i = .solInit sz tl) ∨ (∃ rs, i = .solRem rs) →
          s.readyCommand p = some w)))) ∧
  (∀ (s : State) (p : Nat) (w : Word64) (i : Instr),
    s.Inv → s.core = .idle → (s.port p).cmdq.head? = some w → decodeCommand w = .command i →
    check i s = none →
    (∃ len, i = .payLoad len ∧ s.params.dinDepth < len) ∨
      (∃ rd sz n, i = .slcCreate rd sz n ∧ s.params.dinDepth < ceilDiv n 8 + sz) ∨
      (i = .solRemin ∧ s.params.dinDepth < ceilDiv s.sol.n.toNat 8 + s.sol.s.toNat) ∨
      (∃ rs, i = .slcOut rs ∧
        s.params.doutDepth < ceilDiv (s.reg rs).slice.n 8 + (s.reg rs).slice.s) ∨
      (i = .solTry ∧ s.params.doutDepth < s.sol.tl.toNat) →
    s.readyCommand p = none)

/-! ### Reset (70_reset_and_hazards.md) -/

/-- The reset values of 70_reset_and_hazards.md R341, and the CSRs' of 10_state.md R40. -/
def Obligations.ResetLeavesTheStatedValues : Prop :=
  (∀ k, (State.reset.reg k).valid = false) ∧
  State.reset.payloadLen = 0 ∧ State.reset.payValid = false ∧
  State.reset.gen = ⟨false, false, 0, 0, 0, 0, 0⟩ ∧
  State.reset.sol = ⟨false, 0, 0, 0, [], false, false⟩ ∧
  State.reset.fault = ⟨false, 0, 0, 0, 0⟩ ∧ State.reset.faultO = false ∧
  (∀ p, State.reset.port p = ⟨[], [], [], []⟩) ∧
  State.reset.plan = ⟨false, 0⟩ ∧ State.reset.core = .idle ∧
  State.reset.csr 0x000 = some 0x50425831 ∧
  (∀ c ∈ [0x001, 0x002, 0x003, 0x004, 0x005, 0x006, 0x007, 0x010, 0x011, 0x012, 0x013, 0x014, 0x020,
    0x021, 0x022, 0x023], State.reset.csr c = some 0) ∧
  State.reset.csr 0x008 = some (BitVec.ofNat 32 State.reset.params.nmax) ∧
  State.reset.csr 0x009 = some (BitVec.ofNat 32 State.reset.params.smax) ∧
  State.reset.csr 0x00A = some (BitVec.ofNat 32 State.reset.params.rmax) ∧
  State.reset.csr 0x00B = some (BitVec.ofNat 32 State.reset.params.pmax) ∧
  State.reset.csr 0x00C = some (BitVec.ofNat 32 State.reset.params.nports)

/-- `rst_i`, in any state, gives every piece of state its reset value and empties every queue; it
does not reach the agents outside the core (70_reset_and_hazards.md R340, R342). The fields kept, and
the reset values the spec leaves unspecified: notes/assumptions/4.md, 5.md, 16.md, 18.md. -/
def Obligations.ResetInputRestoresTheResetValues : Prop :=
  ∀ s u : State, s.nextMove = (.rst, u) →
    step s = .next { State.reset with
      params := u.params
      rngInst := u.rngInst
      agenda := u.agenda
      envTick := u.envTick }

/-! ### The invariant -/

/-- The invariant holds at reset. Its clauses on payload memory, the latches and the two collaborator
ports speak of the model's own form (notes/assumptions/5.md, 10.md, 11.md, 16.md, 22.md). -/
def Obligations.ResetSatisfiesTheInvariant : Prop := State.reset.Inv

/-- Every step keeps the invariant, whichever agent moves (the model's own form: as at
`ResetSatisfiesTheInvariant`). -/
def Obligations.StepKeepsTheInvariant : Prop :=
  ∀ s t : State, s.Inv → step s = .next t → t.Inv

/-- From a state that satisfies the invariant the machine never stops: in particular no unspecified
byte of payload memory is ever read (10_state.md R33; the stops are the model's:
notes/assumptions/5.md, 17.md). -/
def Obligations.StepNeverStops : Prop := ∀ s : State, s.Inv → ∃ t, step s = .next t

/-- Payload memory and the ports keep their canonical forms under every instruction, in every state
(the forms are the model's: notes/assumptions/5.md, 22.md). -/
def Obligations.ExecKeepsTheCanonicalForms : Prop :=
  ∀ (i : Instr) (s t : State), Memory.wf s.pmem → PortMap.wf s.ports → exec i s = .next t →
    Memory.wf t.pmem ∧ PortMap.wf t.ports

/-! ### Rules of the whole machine -/

/-- The parameter CSRs never change (10_state.md R48). -/
def Obligations.ParametersNeverChange : Prop :=
  ∀ s t : State, step s = .next t →
    t.params = s.params ∧
    t.csr 0x008 = some (BitVec.ofNat 32 s.params.nmax) ∧
    t.csr 0x009 = some (BitVec.ofNat 32 s.params.smax) ∧
    t.csr 0x00A = some (BitVec.ofNat 32 s.params.rmax) ∧
    t.csr 0x00B = some (BitVec.ofNat 32 s.params.pmax) ∧
    t.csr 0x00C = some (BitVec.ofNat 32 s.params.nports)

/-- HALTED ends only by reset, and until then nothing changes but the queues: the fault record is
never overwritten (60_exceptions.md R305, R306; 10_state.md R39). The latches of the command taken
change too (notes/assumptions/16.md). -/
def Obligations.HaltedEndsOnlyByReset : Prop :=
  ∀ (s u t : State) (e : Event),
    s.nextMove = (e, u) → u.core = .halted → e ≠ .rst → step s = .next t →
    t = { u with ports := t.ports, cmdPort := t.cmdPort, cmdWord := t.cmdWord }

/-- A slice register once written stays valid until reset (10_state.md R32, 41_slice.md R174). -/
def Obligations.WrittenRegistersStayValid : Prop :=
  ∀ (s u t : State) (e : Event) (k : SIdx),
    s.nextMove = (e, u) → e ≠ .rst → step s = .next t →
    (s.reg k).valid = true → (t.reg k).valid = true

/-- SOL_SOLVED never goes back to 0 within a solver instance: only SOL.INIT clears it; the solver never
leaves SOLVED, nor goes back to UNINIT (10_state.md R38). -/
def Obligations.SolvedIsSticky : Prop :=
  ∀ (i : Instr) (s t : State), (∀ sz tl, i ≠ .solInit sz tl) → exec i s = .next t →
    (s.sol.solved = true → t.sol.solved = true) ∧
    (s.solverPhase = .solved → t.solverPhase = .solved) ∧
    (s.solverPhase ≠ .uninit → t.solverPhase ≠ .uninit)

/-- Who writes what: payload memory only PAY.LOAD (10_state.md R33, R34), the generator state only
PAY.LOAD, GEN.INIT and GEN.NEXT (R35), the row file only SOL.INIT, SOL.REM, SOL.REMIN and the steps
of a plan (R37), a slice register only the command whose `rd` names it (R31, 41_slice.md R174), the
fault record only a fault (R39). -/
def Obligations.OnlyTheNamedInstructionsWrite : Prop :=
  ∀ (i : Instr) (s t : State), exec i s = .next t →
    ((∀ len, i ≠ .payLoad len) →
      s.SameMemory t ∧ t.payloadLen = s.payloadLen ∧ t.payValid = s.payValid) ∧
    (writesGenerator i = false → t.gen = s.gen) ∧
    (writesRowFile i = false → t.sol.rows = s.sol.rows) ∧
    (∀ k, k ∉ destinations i → t.reg k = s.reg k) ∧
    (t.fault = s.fault ∨ s.core = .idle ∧ t.core = .halted)

/-- A command changes no port but its own, no command queue at all, and of its own port it takes
input from the front and adds output and responses at the back (20_memory.md R86, R95;
60_exceptions.md R314). -/
def Obligations.CommandsUseOnlyTheirOwnPort : Prop :=
  ∀ (i : Instr) (s t : State), exec i s = .next t →
    t.cmdPort = s.cmdPort ∧ (∀ p, p ≠ s.cmdPort → t.port p = s.port p) ∧
    t.here.cmdq = s.here.cmdq ∧
    (∃ k, t.here.dinq = s.here.dinq.drop k) ∧
    (∃ out, t.here.doutq = s.here.doutq ++ out) ∧
    (∃ resp, t.here.respq = s.here.respq ++ resp)

/-! ### Faults (60_exceptions.md) -/

/-- A command that fails a check writes the fault record, answers the ERR word, halts the core, and
does nothing else: no input byte is consumed, no output byte pushed, no random byte drawn
(60_exceptions.md R302, R303). The codes are those of R301. -/
def Obligations.FaultingCommandsDoNothingElse : Prop :=
  (∀ (i : Instr) (s : State) (u : Trap), s.core = .idle → check i s = some u →
    s.FaultsWith (exec i s) u.code.code u.info ∧ ∀ t, exec i s = .next t → t.faultO = true) ∧
  FaultCode.illegal.code = 0x01 ∧ FaultCode.reserved.code = 0x02 ∧
  FaultCode.sregUnwritten.code = 0x03 ∧ FaultCode.shape.code = 0x04 ∧ FaultCode.emptyMix.code = 0x05 ∧
  FaultCode.badConfig.code = 0x06 ∧ FaultCode.index.code = 0x07 ∧ FaultCode.noPayload.code = 0x08 ∧
  FaultCode.genUninit.code = 0x09 ∧ FaultCode.solUninit.code = 0x0A ∧ FaultCode.rowsFull.code = 0x0B ∧
  FaultCode.plan.code = 0x0C ∧ FaultCode.csr.code = 0x0D

/-- In HALTED every command but CSRR of a mapped number, and every word that is no command, is answered
with the ERR word of the latched cause and has no other effect (60_exceptions.md R305). -/
def Obligations.HaltedAnswersErr : Prop :=
  (∀ (i : Instr) (s : State), s.core = .halted → i.isPlan = false →
    (∀ c, i = .csrr c → s.csr c = none) →
    ∃ t, exec i s = .next t ∧
      s.OnlyAnswered t (0xFF00000000000000 ||| s.fault.cause.setWidth 64)) ∧
  (∀ (s u : State) (p : Nat) (w : Word64),
    s.nextMove = (.core p, u) → u.core = .halted → u.readyCommand p = some w →
    decodeCommand w = .illegal ∨ decodeCommand w = .reserved →
    ∃ t, step s = .next t ∧
      (u.take p w).OnlyAnswered t (0xFF00000000000000 ||| u.fault.cause.setWidth 64))

/-- Where the slice commands, SPLIT and MIX trap, and with which FAULT_INFO (41_slice.md R170 to R173,
42_split_mix.md R201, R203; 60_exceptions.md R301, R307). -/
def Obligations.SliceCommandsTrapInOrder : Prop :=
  ∀ (s : State) (rd rs : SIdx), s.core = .idle →
    (∀ sz n, s.params.smax < sz ∨ s.params.nmax < n →
      s.FaultsWith (exec (.slcCreate rd sz n) s) 0x06 0) ∧
    ((s.reg rs).valid = false →
      s.FaultsWith (exec (.slcClone rd rs) s) 0x03 rs.val ∧
      s.FaultsWith (exec (.slcOut rs) s) 0x03 rs.val) ∧
    ((s.reg rd).valid = false →
      s.FaultsWith (exec (.slcXor rd rs) s) 0x03 rd.val) ∧
    ((s.reg rd).valid = true → (s.reg rs).valid = false →
      s.FaultsWith (exec (.slcXor rd rs) s) 0x03 rs.val) ∧
    ((s.reg rd).valid = true → (s.reg rs).valid = true →
      (s.reg rd).slice.n ≠ (s.reg rs).slice.n ∨ (s.reg rd).slice.s ≠ (s.reg rs).slice.s →
      s.FaultsWith (exec (.slcXor rd rs) s) 0x04 0) ∧
    (∀ j, s.gen.ready = false → s.FaultsWith (exec (.split rd j) s) 0x09 0) ∧
    (∀ j, s.gen.ready = true → s.gen.n.toNat ≤ j →
      s.FaultsWith (exec (.split rd j) s) 0x07 j) ∧
    s.FaultsWith (exec (.mix rd 0) s) 0x05 0 ∧
    (∀ (mask : BitVec 16) (k : SIdx), mask.getLsbD k.val = true → (s.reg k).valid = false →
      (∀ j, j < k → mask.getLsbD j.val = true → (s.reg j).valid = true) →
      s.FaultsWith (exec (.mix rd mask) s) 0x03 k.val) ∧
    (∀ (mask : BitVec 16) (f k : SIdx),
      (∀ j : SIdx, mask.getLsbD j.val = true → (s.reg j).valid = true) →
      mask.getLsbD f.val = true → (∀ j : SIdx, mask.getLsbD j.val = true → f ≤ j) →
      mask.getLsbD k.val = true → (s.reg k).slice.sameShape (s.reg f).slice = false →
      (∀ j, j < k → mask.getLsbD j.val = true →
        (s.reg j).slice.sameShape (s.reg f).slice = true) →
      s.FaultsWith (exec (.mix rd mask) s) 0x04 k.val)

/-- Where CSRR and the generator commands trap (45_control.md R292; 43_generator.md R220, R221, R223;
60_exceptions.md R301, R307). -/
def Obligations.GeneratorCommandsTrapInOrder : Prop :=
  ∀ s : State, s.core = .idle →
    (∀ c, s.csr c = none → s.FaultsWith (exec (.csrr c) s) 0x0D c) ∧
    (∀ len, s.params.pmax < len → s.FaultsWith (exec (.payLoad len) s) 0x06 0) ∧
    (∀ sz sys, s.payValid = false →
      s.FaultsWith (exec (.genInit sz sys) s) 0x08 0) ∧
    (∀ sz sys, s.payValid = true →
      sz = 0 ∨ s.params.smax < sz ∨ s.params.nmax < ceilDiv s.payloadLen.toNat sz →
      s.FaultsWith (exec (.genInit sz sys) s) 0x06 0) ∧
    (∀ rd, s.gen.ready = false → s.FaultsWith (exec (.genNext rd) s) 0x09 0)

/-- Where the solver commands trap (44_solver.md R250 to R253; 60_exceptions.md R301, R307). -/
def Obligations.SolverCommandsTrapInOrder : Prop :=
  ∀ (s : State) (rs : SIdx), s.core = .idle →
    (∀ sz tl, sz = 0 ∨ s.params.smax < sz ∨ s.params.nmax < ceilDiv tl sz →
      s.FaultsWith (exec (.solInit sz tl) s) 0x06 0) ∧
    (s.sol.ready = false →
      s.FaultsWith (exec (.solRem rs) s) 0x0A 0 ∧
      s.FaultsWith (exec .solRemin s) 0x0A 0 ∧
      s.FaultsWith (exec .solTry s) 0x0A 0) ∧
    (s.sol.ready = true → (s.reg rs).valid = false →
      s.FaultsWith (exec (.solRem rs) s) 0x03 rs.val) ∧
    (s.sol.ready = true → (s.reg rs).valid = true →
      (s.reg rs).slice.n ≠ s.sol.n.toNat ∨ (s.reg rs).slice.s ≠ s.sol.s.toNat →
      s.FaultsWith (exec (.solRem rs) s) 0x04 rs.val) ∧
    (s.sol.ready = true → (s.reg rs).valid = true → (s.reg rs).slice.n = s.sol.n.toNat →
      (s.reg rs).slice.s = s.sol.s.toNat → s.solRows = s.params.rmax →
      s.FaultsWith (exec (.solRem rs) s) 0x0B 0) ∧
    (s.sol.ready = true → s.solRows = s.params.rmax →
      s.FaultsWith (exec .solRemin s) 0x0B 0)

/-! ### Control commands (45_control.md) -/

/-- NOP changes nothing; SYNC answers its response word and does nothing else; CSRR of a mapped number
answers the CSR's value, IDLE and HALTED alike, and changes nothing else (45_control.md R290 to R292,
20_memory.md R102, 60_exceptions.md R305). -/
def Obligations.ControlCommandsComplete : Prop :=
  (∀ s : State, s.core = .idle →
    exec .nop s = .next s ∧
    ∃ t, exec .sync s = .next t ∧ s.OnlyAnswered t 0x0100000000000000) ∧
  (∀ (s : State) (c : Nat) (v : Word32), s.core = .idle ∨ s.core = .halted → s.csr c = some v →
    ∃ t, exec (.csrr c) s = .next t ∧ s.OnlyAnswered t (0x0200000000000000 ||| v.setWidth 64))

/-- The bits of STATUS, and its value after reset (10_state.md R42). -/
def Obligations.StatusBitsAreTheFlags : Prop :=
  State.reset.csr 0x001 = some 0x00000000 ∧
  ∀ s : State, s.csr 0x001 = some s.status ∧
    s.status.getLsbD 0 = s.fault.fault ∧
    s.status.getLsbD 1 = s.payValid ∧
    s.status.getLsbD 2 = s.gen.ready ∧
    s.status.getLsbD 3 = s.gen.systematic ∧
    s.status.getLsbD 4 = s.sol.ready ∧
    s.status.getLsbD 5 = s.sol.solved ∧
    s.status.getLsbD 6 = s.sol.lastTryPresent ∧
    (s.status.getLsbD 7 = true ↔
      s.gen.ready = true ∧ s.gen.systematic = true ∧ s.gen.sysPos.toNat < s.gen.n.toNat) ∧
    (∀ i, 8 ≤ i → s.status.getLsbD i = false)

/-- The CSR map: SREG_VALID shows which slice registers may be read (10_state.md R47); ID is its constant
(R41); STATUS, the fault record, the parameters, the payload length, the generator's and the solver's
registers are read as they are (R42 to R46, R48 to R54); no other number is mapped (R40). -/
def Obligations.CsrMapIsTheSpecs : Prop :=
  ∀ s : State,
    (∃ v, s.csr 0x006 = some v ∧ (∀ k : SIdx, v.getLsbD k.val = (s.reg k).valid) ∧
      ∀ i, 16 ≤ i → v.getLsbD i = false) ∧
    s.csr 0x000 = some 0x50425831 ∧
    s.csr 0x001 = some s.status ∧
    s.csr 0x008 = some (BitVec.ofNat 32 s.params.nmax) ∧
    s.csr 0x009 = some (BitVec.ofNat 32 s.params.smax) ∧
    s.csr 0x00A = some (BitVec.ofNat 32 s.params.rmax) ∧
    s.csr 0x00B = some (BitVec.ofNat 32 s.params.pmax) ∧
    s.csr 0x00C = some (BitVec.ofNat 32 s.params.nports) ∧
    (∃ v, s.csr 0x002 = some v ∧ v.toNat = s.fault.cause.toNat) ∧
    s.csr 0x003 = some s.fault.port ∧
    (∃ lo hi, s.csr 0x004 = some lo ∧ s.csr 0x005 = some hi ∧ s.fault.cmd = hi ++ lo) ∧
    s.csr 0x007 = some s.fault.info ∧
    s.csr 0x010 = some s.payloadLen ∧
    (∃ v, s.csr 0x011 = some v ∧ v.toNat = s.gen.s.toNat) ∧
    s.csr 0x012 = some s.gen.n ∧ s.csr 0x013 = some s.gen.index ∧ s.csr 0x014 = some s.gen.draws ∧
    (∃ v, s.csr 0x020 = some v ∧ v.toNat = s.sol.s.toNat) ∧
    s.csr 0x021 = some s.sol.tl ∧ s.csr 0x022 = some s.sol.n ∧
    s.csr 0x023 = some (BitVec.ofNat 32 s.solRows) ∧
    (∀ c, (s.csr c).isSome = true ↔
      c ∈ [0x000, 0x001, 0x002, 0x003, 0x004, 0x005, 0x006, 0x007, 0x008, 0x009, 0x00A, 0x00B, 0x00C,
        0x010, 0x011, 0x012, 0x013, 0x014, 0x020, 0x021, 0x022, 0x023])

/-! ### Slice commands (41_slice.md) -/

/-- SLC.CREATE takes the slice image from the input queue: coefficient bit `i` is bit `i mod 8` of byte
`i div 8`, padding ignored, then the data bytes (41_slice.md R170, 20_memory.md R83). -/
def Obligations.SlcCreateWritesTheImage : Prop :=
  ∀ (s : State) (rd : SIdx) (sz n : Nat),
    s.core = .idle → sz ≤ s.params.smax → n ≤ s.params.nmax →
    ceilDiv n 8 + sz ≤ s.here.dinq.length →
    ∃ t, exec (.slcCreate rd sz n) s = .next t ∧
      (t.reg rd).valid = true ∧ (t.reg rd).slice.n = n ∧ (t.reg rd).slice.s = sz ∧
      (∀ i < n, (t.reg rd).slice.coef.getD i false =
        (s.here.dinq.getD (i / 8) 0).getLsbD (i % 8)) ∧
      (∀ k < sz, (t.reg rd).slice.data.getD k 0 = s.here.dinq.getD (ceilDiv n 8 + k) 0) ∧
      s.OnlyPortNow t { s.here with dinq := s.here.dinq.drop (ceilDiv n 8 + sz) } ∧
      s.SameRegsBut t rd ∧ s.SameMemory t ∧ t = { s with sregs := t.sregs, ports := t.ports }

/-- SLC.CLONE copies a register whole (41_slice.md R171). -/
def Obligations.SlcCloneCopies : Prop :=
  ∀ (s : State) (rd rs : SIdx), s.core = .idle → (s.reg rs).valid = true →
    ∃ t, exec (.slcClone rd rs) s = .next t ∧ t.reg rd = s.reg rs ∧
      s.SameRegsBut t rd ∧ s.SameMemory t ∧ t = { s with sregs := t.sregs }

/-- SLC.XOR combines both halves element by element; of a register with itself it leaves zeros of the
same shape (41_slice.md R172, 40_packed_buffer.md R155, R157). -/
def Obligations.SlcXorCombines : Prop :=
  ∀ (s : State) (rd rs : SIdx), s.core = .idle →
    (s.reg rd).valid = true → (s.reg rs).valid = true →
    (s.reg rd).slice.n = (s.reg rs).slice.n → (s.reg rd).slice.s = (s.reg rs).slice.s →
    ∃ t, exec (.slcXor rd rs) s = .next t ∧
      (t.reg rd).valid = true ∧ (t.reg rd).slice.n = (s.reg rd).slice.n ∧
      (t.reg rd).slice.s = (s.reg rd).slice.s ∧
      (∀ i < (s.reg rd).slice.n, (t.reg rd).slice.coef.getD i false =
        ((s.reg rd).slice.coef.getD i false != (s.reg rs).slice.coef.getD i false)) ∧
      (∀ k < (s.reg rd).slice.s, (t.reg rd).slice.data.getD k 0 =
        (s.reg rd).slice.data.getD k 0 ^^^ (s.reg rs).slice.data.getD k 0) ∧
      (rd = rs → (t.reg rd).slice =
        ⟨List.replicate (s.reg rd).slice.n false, List.replicate (s.reg rd).slice.s 0⟩) ∧
      s.SameRegsBut t rd ∧ s.SameMemory t ∧ t = { s with sregs := t.sregs }

/-- SLC.OUT pushes the slice image: coefficient bytes LSB-first with zero padding, then the data bytes
(41_slice.md R173, 30_encoding.md R121). -/
def Obligations.SlcOutPushesTheImage : Prop :=
  ∀ (s : State) (rs : SIdx), s.core = .idle → (s.reg rs).valid = true →
    ∃ (t : State) (out : List Byte), exec (.slcOut rs) s = .next t ∧
      s.OnlyPortNow t { s.here with doutq := s.here.doutq ++ out } ∧
      out.length = ceilDiv (s.reg rs).slice.n 8 + (s.reg rs).slice.s ∧
      (∀ j < ceilDiv (s.reg rs).slice.n 8, ∀ b < 8, (out.getD j 0).getLsbD b =
        (s.reg rs).slice.coef.getD (8 * j + b) false) ∧
      (∀ k < (s.reg rs).slice.s, out.getD (ceilDiv (s.reg rs).slice.n 8 + k) 0 =
        (s.reg rs).slice.data.getD k 0) ∧
      s.SameMemory t ∧ t = { s with ports := t.ports }

/-- Reading back what was packed gives the logical elements: the slice that SLC.CREATE makes of the
image SLC.OUT pushes is the slice itself (40_packed_buffer.md R153, 30_encoding.md R121). -/
def Obligations.ImageRoundTrip : Prop :=
  ∀ (x : Slice) (rest : List Byte), sliceOfImage x.n x.s (x.image ++ rest) = x

/-! ### Splitter and mixer (42_split_mix.md) -/

/-- SPLIT writes systematic slice `i` of the payload: the unit vector `e_i` and segment `i`, padded with
zeros past the payload; the generator's sequence is not touched (42_split_mix.md R200, R201). -/
def Obligations.SplitWritesTheSegment : Prop :=
  ∀ (s : State) (rd : SIdx) (i : Nat),
    s.core = .idle → s.gen.ready = true → i < s.gen.n.toNat → s.PayloadThere →
    ∃ t, exec (.split rd i) s = .next t ∧
      (t.reg rd).valid = true ∧ (t.reg rd).slice.n = s.gen.n.toNat ∧
      (t.reg rd).slice.s = s.gen.s.toNat ∧
      (∀ j < s.gen.n.toNat, (t.reg rd).slice.coef.getD j false = decide (j = i)) ∧
      (∀ k < s.gen.s.toNat, some ((t.reg rd).slice.data.getD k 0) =
        if i * s.gen.s.toNat + k < s.payloadLen.toNat then
          Memory.read s.pmem (i * s.gen.s.toNat + k)
        else some 0) ∧
      s.SameRegsBut t rd ∧ s.SameMemory t ∧ t = { s with sregs := t.sregs }

/-- MIX writes, in every coefficient bit and in every bit of every data byte, the parity of that bit
over the selected registers, all read before the write (42_split_mix.md R202, R203). -/
def Obligations.MixWritesTheParity : Prop :=
  ∀ (s : State) (rd : SIdx) (mask : BitVec 16) (n sz : Nat),
    s.core = .idle → mask ≠ 0 →
    (∀ k : SIdx, mask.getLsbD k.val = true →
      (s.reg k).valid = true ∧ (s.reg k).slice.n = n ∧ (s.reg k).slice.s = sz) →
    ∃ t, exec (.mix rd mask) s = .next t ∧
      (t.reg rd).valid = true ∧ (t.reg rd).slice.n = n ∧ (t.reg rd).slice.s = sz ∧
      (∀ i < n, (t.reg rd).slice.coef.getD i false =
        decide (((List.finRange 16).countP fun k => mask.getLsbD k.val &&
          (s.reg k).slice.coef.getD i false) % 2 = 1)) ∧
      (∀ j < sz, ∀ b < 8, ((t.reg rd).slice.data.getD j 0).getLsbD b =
        decide (((List.finRange 16).countP fun k => mask.getLsbD k.val &&
          ((s.reg k).slice.data.getD j 0).getLsbD b) % 2 = 1)) ∧
      s.SameRegsBut t rd ∧ s.SameMemory t ∧ t = { s with sregs := t.sregs }

/-- The laws of Mix (42_split_mix.md R204): slices of one shape mix to the same slice in any order and
any grouping, one slice mixes to itself, a pair of equal slices contributes nothing; the mix of valid
slices is valid, its coefficients and its data being the XOR of theirs. -/
def Obligations.MixLaws : Prop :=
  (∀ (n sz : Nat) (xs ys : List Slice), xs.Perm ys → (∀ x ∈ xs, x.n = n ∧ x.s = sz) →
    mixSlices xs = mixSlices ys) ∧
  (∀ (n sz : Nat) (xs ys : List Slice) (a b : Slice), (∀ x ∈ xs ++ ys, x.n = n ∧ x.s = sz) →
    mixSlices xs = some a → mixSlices ys = some b → mixSlices (xs ++ ys) = mixSlices [a, b]) ∧
  (∀ x : Slice, mixSlices [x] = some x) ∧
  (∀ (x : Slice) (ys : List Slice), ys ≠ [] → (∀ y ∈ ys, y.n = x.n ∧ y.s = x.s) →
    mixSlices (x :: x :: ys) = mixSlices ys) ∧
  (∀ (payload : List Byte) (sz : Nat) (xs : List Slice) (m : Slice),
    (∀ x ∈ xs, x.ValidFor payload sz) → mixSlices xs = some m →
    m.ValidFor payload sz ∧
    (∀ i < m.n, m.coef.getD i false = decide (xs.countP (·.coef.getD i false) % 2 = 1)) ∧
    (∀ k < m.s, m.data.getD k 0 = xs.foldl (fun acc x => acc ^^^ x.data.getD k 0) 0))

/-- The GF(2) laws of XorInto on buffers of equal length (40_packed_buffer.md R159): commutative,
associative, the zero buffer its identity, every buffer its own inverse. -/
def Obligations.XorIsAdditionOverGF2 : Prop :=
  (∀ a b c : List Bool, a.length = b.length → b.length = c.length →
    xorBits a b = xorBits b a ∧ xorBits (xorBits a b) c = xorBits a (xorBits b c) ∧
    xorBits a (List.replicate a.length false) = a ∧ xorBits a a = List.replicate a.length false) ∧
  (∀ a b c : List Byte, a.length = b.length → b.length = c.length →
    xorBytes a b = xorBytes b a ∧ xorBytes (xorBytes a b) c = xorBytes a (xorBytes b c) ∧
    xorBytes a (List.replicate a.length 0) = a ∧ xorBytes a a = List.replicate a.length 0)

/-! ### Packed buffers (40_packed_buffer.md) -/

/-- Reading a packed buffer back yields its logical elements, for every word width the block may have
(40_packed_buffer.md R153). -/
def Obligations.UnpackPackIsIdentity : Prop :=
  ∀ w : Nat, 8 ≤ w → w % 8 = 0 →
    (∀ c : List Bool, (Packed.ofBits w c).toBits = c) ∧
    (∀ d : List Byte, (Packed.ofBytes w d).toBytes = d)

/-- The XOR engine on physical words is the element-wise XOR the state computes with: for buffers of
one logical length it never faults, its result is the packed form of that XOR, and the padding
stays zero (40_packed_buffer.md R155, R156, R158). -/
def Obligations.PackedXorRefinesTheElementwiseXor : Prop :=
  ∀ w : Nat, 8 ≤ w → w % 8 = 0 →
    (∀ a b : List Bool, a.length = b.length →
      (Packed.ofBits w a).xorInto (Packed.ofBits w b) = some (Packed.ofBits w (xorBits a b))) ∧
    (∀ a b : List Byte, a.length = b.length →
      (Packed.ofBytes w a).xorInto (Packed.ofBytes w b) = some (Packed.ofBytes w (xorBytes a b))) ∧
    (∀ a : List Bool, (Packed.ofBits w a).PaddingZero) ∧
    (∀ a b r : Packed w, a.PaddingZero → b.PaddingZero → a.len = b.len →
      a.xorInto b = some r → r.len = a.len ∧ r.PaddingZero)

/-! ### Slice generator (43_generator.md) -/

/-- PAY.LOAD writes the payload from address 0, leaves every other byte, and ends the generator
instance (43_generator.md R220). -/
def Obligations.PayLoadWritesThePayload : Prop :=
  ∀ (s : State) (len : Nat),
    s.params.Ok → s.core = .idle → len ≤ s.params.pmax → len ≤ s.here.dinq.length →
    ∃ t, exec (.payLoad len) s = .next t ∧
      (∀ a < len, Memory.read t.pmem a = some (s.here.dinq.getD a 0)) ∧
      (∀ a, len ≤ a → Memory.read t.pmem a = Memory.read s.pmem a) ∧
      t.payloadLen.toNat = len ∧
      s.OnlyPortNow t { s.here with dinq := s.here.dinq.drop len } ∧
      t = { s with
        pmem := t.pmem
        payloadLen := t.payloadLen
        payValid := true
        gen := { s.gen with ready := false }
        ports := t.ports }

/-- GEN.INIT makes a generator instance: N = ceil(PAYLOAD_LEN / s), every counter 0, a fresh random
source (43_generator.md R221); the counter of sources is the model's (notes/assumptions/21.md). -/
def Obligations.GenInitMakesAnInstance : Prop :=
  ∀ (s : State) (sz : Nat) (sys : Bool),
    s.params.Ok → s.core = .idle → s.payValid = true → 1 ≤ sz → sz ≤ s.params.smax →
    ceilDiv s.payloadLen.toNat sz ≤ s.params.nmax →
    ∃ t, exec (.genInit sz sys) s = .next t ∧
      t.gen.ready = true ∧ t.gen.systematic = sys ∧ t.gen.s.toNat = sz ∧
      t.gen.n.toNat = ceilDiv s.payloadLen.toNat sz ∧
      t.gen.sysPos = 0 ∧ t.gen.index = 0 ∧ t.gen.draws = 0 ∧
      s.SameMemory t ∧ t = { s with gen := t.gen, rngInst := s.rngInst + 1, rngIn := [] }

/-- GEN.NEXT in the systematic phase emits the next segment under its unit vector and draws nothing
(43_generator.md R223). -/
def Obligations.GenNextEmitsSystematicSlices : Prop :=
  ∀ (s : State) (rd : SIdx),
    s.core = .idle → s.gen.ready = true → s.gen.systematic = true →
    s.gen.sysPos.toNat < s.gen.n.toNat → s.PayloadThere →
    ∃ t, exec (.genNext rd) s = .next t ∧
      (t.reg rd).valid = true ∧ (t.reg rd).slice.n = s.gen.n.toNat ∧
      (∀ j < s.gen.n.toNat,
        (t.reg rd).slice.coef.getD j false = decide (j = s.gen.sysPos.toNat)) ∧
      (t.reg rd).slice.data = segmentOf s.payload s.gen.s.toNat s.gen.sysPos.toNat ∧
      s.SameRegsBut t rd ∧ s.SameMemory t ∧
      t = { s with
        sregs := t.sregs
        gen := { s.gen with sysPos := s.gen.sysPos + 1, index := s.gen.index + 1 } }

/-- GEN.NEXT in the random phase, its draw having arrived and selecting some segment, emits the mix of
the selected segments and is over (43_generator.md R222, R223). -/
def Obligations.GenNextEmitsRandomMixes : Prop :=
  ∀ (s : State) (rd : SIdx),
    (s.core = .exec .drawing ∨ s.core = .idle ∧ s.gen.ready = true ∧ s.genInSys = false) →
    ceilDiv s.gen.n.toNat 8 ≤ s.rngIn.length →
    (∃ i < s.gen.n.toNat, (s.rngIn.getD (i / 8) 0).getLsbD (i % 8) = true) → s.PayloadThere →
    ∃ t, exec (.genNext rd) s = .next t ∧
      (t.reg rd).valid = true ∧ (t.reg rd).slice.n = s.gen.n.toNat ∧
      (∀ i < s.gen.n.toNat, (t.reg rd).slice.coef.getD i false =
        (s.rngIn.getD (i / 8) 0).getLsbD (i % 8)) ∧
      (t.reg rd).slice.data = combine s.payload s.gen.s.toNat (t.reg rd).slice.coef ∧
      s.SameRegsBut t rd ∧ s.SameMemory t ∧
      t = { s with
        sregs := t.sregs
        core := .idle
        rngIn := s.rngIn.drop (ceilDiv s.gen.n.toNat 8)
        gen := { s.gen with draws := s.gen.draws + 1, index := s.gen.index + 1 } }

/-- GEN.NEXT in the random phase holds until the bytes of its draw have arrived; an all-false draw is
consumed, counted and discarded, and the command goes on (43_generator.md R222, R223). One draw a
step is the model's choice: notes/assumptions/8.md. -/
def Obligations.GenNextHoldsAndDiscards : Prop :=
  ∀ (s : State) (rd : SIdx),
    (s.core = .exec .drawing ∨ s.core = .idle ∧ s.gen.ready = true ∧ s.genInSys = false) →
    (s.rngIn.length < ceilDiv s.gen.n.toNat 8 →
      exec (.genNext rd) s = .next { s with core := .exec .drawing }) ∧
    (ceilDiv s.gen.n.toNat 8 ≤ s.rngIn.length →
      (∀ i < s.gen.n.toNat, (s.rngIn.getD (i / 8) 0).getLsbD (i % 8) = false) →
      exec (.genNext rd) s = .next { s with
        core := .exec .drawing
        rngIn := s.rngIn.drop (ceilDiv s.gen.n.toNat 8)
        gen := { s.gen with draws := s.gen.draws + 1 } })

/-- With GEN_N = 0 a GEN.NEXT in its random phase never completes: whatever the agents do, reset apart,
the core is still in it after any number of steps, and no register has been written
(43_generator.md R225; one draw a step: notes/assumptions/8.md). -/
def Obligations.EmptyGeneratorLivelocks : Prop :=
  ∀ (s : State) (rd : SIdx), s.core = .exec .drawing → s.gen.n = 0 →
    decodeCommand s.cmdWord = .command (.genNext rd) → (∀ e ∈ s.agenda, e ≠ .rst) →
    ∃ t, Sys2Proof.core.run s.agenda.length s = .next t ∧ t.core = .exec .drawing ∧
      t.sregs = s.sregs ∧ t.gen.index = s.gen.index

/-- The element GEN.NEXT emits is a function of the payload, the generator state and the random bytes
alone (43_generator.md R224 (a)): two machines that agree on these make the same step of the
sequence, whatever else differs. -/
def Obligations.GeneratorIsDeterministic : Prop :=
  ∀ (s u t : State) (rd : SIdx),
    u.core = s.core → u.gen = s.gen → u.payloadLen = s.payloadLen → u.rngIn = s.rngIn →
    (∀ a < s.payloadLen.toNat, Memory.read u.pmem a = Memory.read s.pmem a) →
    exec (.genNext rd) s = .next t →
    ∃ v, exec (.genNext rd) u = .next v ∧ v.core = t.core ∧ v.gen = t.gen ∧ v.rngIn = t.rngIn ∧
      (t.core = .idle → v.reg rd = t.reg rd)

/-- The slice invariant is kept (10_state.md R61, 43_generator.md R224 (e)). SLC.CLONE, SLC.XOR and MIX of
slices valid for any payload and slice size leave a slice valid for them, generator or not. And if
every written register holds a valid slice of the generator's payload, so does every one after any
instruction but SLC.CREATE, which takes the host's word for it. -/
def Obligations.SlicesStayValid : Prop :=
  (∀ (payload : List Byte) (sz : Nat) (i : Instr) (s t : State),
    (∃ rd rs, i = .slcClone rd rs ∨ i = .slcXor rd rs) ∨ (∃ rd mask, i = .mix rd mask) →
    (∀ k ∈ sources i, (s.reg k).valid = true → (s.reg k).slice.ValidFor payload sz) →
    exec i s = .next t → t.core ≠ .halted →
    ∀ k ∈ destinations i, (t.reg k).slice.ValidFor payload sz) ∧
  (∀ (i : Instr) (s t : State), s.Inv → s.gen.ready = true →
    (∀ k, (s.reg k).valid = true → (s.reg k).slice.ValidFor s.payload s.gen.s.toNat) →
    (∀ rd sz n, i ≠ .slcCreate rd sz n) → exec i s = .next t →
    ∀ k, (t.reg k).valid = true → (t.reg k).slice.ValidFor s.payload s.gen.s.toNat)

/-! ### Solver (44_solver.md) -/

/-- SOL.INIT makes a solver instance: N = ceil(tl / s), no rows, not solved (44_solver.md R250). -/
def Obligations.SolInitMakesAnInstance : Prop :=
  ∀ (s : State) (sz tl : Nat),
    s.params.Ok → s.core = .idle → 1 ≤ sz → sz ≤ s.params.smax → tl < 2 ^ 32 →
    ceilDiv tl sz ≤ s.params.nmax →
    ∃ t, exec (.solInit sz tl) s = .next t ∧
      t.sol.ready = true ∧ t.sol.s.toNat = sz ∧ t.sol.tl.toNat = tl ∧
      t.sol.n.toNat = ceilDiv tl sz ∧ t.sol.rows = [] ∧ t.sol.solved = false ∧
      t.sol.lastTryPresent = false ∧
      s.SameMemory t ∧ t = { s with sol := t.sol }

/-- SOL.REM appends a copy of the register as the last row and changes nothing else
(44_solver.md R251, 20_memory.md R91). -/
def Obligations.SolRemAppendsACopy : Prop :=
  ∀ (s : State) (rs : SIdx),
    s.core = .idle → s.sol.ready = true → (s.reg rs).valid = true →
    (s.reg rs).slice.n = s.sol.n.toNat → (s.reg rs).slice.s = s.sol.s.toNat →
    s.solRows ≠ s.params.rmax →
    ∃ t, exec (.solRem rs) s = .next t ∧ t.solRows = s.solRows + 1 ∧
      rowAt t.sol.rows s.solRows = (s.reg rs).slice ∧
      (∀ r < s.solRows, rowAt t.sol.rows r = rowAt s.sol.rows r) ∧
      s.SameMemory t ∧ t = { s with sol := { s.sol with rows := t.sol.rows } }

/-- SOL.REMIN appends the slice whose image is taken from the input queue (44_solver.md R252). -/
def Obligations.SolReminAppendsTheInput : Prop :=
  ∀ s : State,
    s.core = .idle → s.sol.ready = true → s.solRows ≠ s.params.rmax →
    ceilDiv s.sol.n.toNat 8 + s.sol.s.toNat ≤ s.here.dinq.length →
    ∃ t, exec .solRemin s = .next t ∧ t.solRows = s.solRows + 1 ∧
      (rowAt t.sol.rows s.solRows).n = s.sol.n.toNat ∧
      (rowAt t.sol.rows s.solRows).s = s.sol.s.toNat ∧
      (∀ i < s.sol.n.toNat, (rowAt t.sol.rows s.solRows).coef.getD i false =
        (s.here.dinq.getD (i / 8) 0).getLsbD (i % 8)) ∧
      (∀ k < s.sol.s.toNat, (rowAt t.sol.rows s.solRows).data.getD k 0 =
        s.here.dinq.getD (ceilDiv s.sol.n.toNat 8 + k) 0) ∧
      (∀ r < s.solRows, rowAt t.sol.rows r = rowAt s.sol.rows r) ∧
      s.OnlyPortNow t
        { s.here with dinq := s.here.dinq.drop (ceilDiv s.sol.n.toNat 8 + s.sol.s.toNat) } ∧
      s.SameMemory t ∧
      t = { s with sol := { s.sol with rows := t.sol.rows }, ports := t.ports }

/-- SOL.TRY answers absent at once when SOL_ROWS < SOL_N; else it opens a plan session, which presents
SOL_N and the coefficient rows, and changes nothing else (44_solver.md R253, 20_memory.md R98;
the PLAN port: notes/assumptions/11.md). -/
def Obligations.SolTryAnswersAbsentOrOpensASession : Prop :=
  ∀ s : State, s.core = .idle → s.sol.ready = true →
    (s.solRows < s.sol.n.toNat →
      ∃ t, exec .solTry s = .next t ∧
        s.OnlyPortNow t { s.here with respq := s.here.respq ++ [0x3300000000000000] } ∧
        s.SameMemory t ∧
        t = { s with sol := { s.sol with lastTryPresent := false }, ports := t.ports }) ∧
    (s.sol.n.toNat ≤ s.solRows →
      ∃ t, exec .solTry s = .next t ∧
        t.presented = some (s.sol.n, s.sol.rows.map Slice.coef) ∧
        s.SameMemory t ∧
        t = { s with plan := ⟨true, 0⟩, planIn := none, core := .exec .planning })

/-- PLAN.SWAP exchanges two rows, both halves, and counts the token; an index at or past SOL_ROWS makes
it a no-op (44_solver.md R253, R254). -/
def Obligations.PlanSwapExchangesRows : Prop :=
  ∀ (s : State) (a b : Nat), s.core = .exec .planning →
    ∃ t, exec (.planSwap a b) s = .next t ∧ t.solRows = s.solRows ∧
      (a < s.solRows → b < s.solRows → ∀ r < s.solRows, rowAt t.sol.rows r =
        if r = a then rowAt s.sol.rows b else if r = b then rowAt s.sol.rows a
        else rowAt s.sol.rows r) ∧
      (s.solRows ≤ a ∨ s.solRows ≤ b → t.sol.rows = s.sol.rows) ∧
      s.SameMemory t ∧
      t = { s with
        sol := { s.sol with rows := t.sol.rows }
        plan := { s.plan with k := s.plan.k + 1 } }

/-- PLAN.XOR adds row `a` into row `b`, both halves, and leaves every other row; an index at or past
SOL_ROWS makes it a no-op (44_solver.md R253, R255). -/
def Obligations.PlanXorAddsRows : Prop :=
  ∀ (s : State) (a b n sz : Nat), s.core = .exec .planning →
    (∀ x ∈ s.sol.rows, x.n = n ∧ x.s = sz) →
    ∃ t, exec (.planXor a b) s = .next t ∧ t.solRows = s.solRows ∧
      (a < s.solRows → b < s.solRows →
        (rowAt t.sol.rows b).n = n ∧ (rowAt t.sol.rows b).s = sz ∧
        (∀ i < n, (rowAt t.sol.rows b).coef.getD i false =
          ((rowAt s.sol.rows b).coef.getD i false != (rowAt s.sol.rows a).coef.getD i false)) ∧
        (∀ k < sz, (rowAt t.sol.rows b).data.getD k 0 =
          (rowAt s.sol.rows b).data.getD k 0 ^^^ (rowAt s.sol.rows a).data.getD k 0) ∧
        ∀ r, r ≠ b → rowAt t.sol.rows r = rowAt s.sol.rows r) ∧
      (s.solRows ≤ a ∨ s.solRows ≤ b → t.sol.rows = s.sol.rows) ∧
      s.SameMemory t ∧
      t = { s with
        sol := { s.sol with rows := t.sol.rows }
        plan := { s.plan with k := s.plan.k + 1 } }

/-- PLAN.COMPLETE ends the session with the payload: data rows 0 to N-1 concatenated and truncated to
SOL_TL bytes, whatever they hold; PLAN.END ends it with absent (44_solver.md R256, R257; PLAN_K stays:
notes/assumptions/19.md). -/
def Obligations.TerminatorsEndTheSession : Prop :=
  ∀ s : State, s.core = .exec .planning →
    (∃ t, exec .planComplete s = .next t ∧
      s.OnlyPortNow t { s.here with
        doutq := s.here.doutq ++
          ((s.sol.rows.take s.sol.n.toNat).flatMap Slice.data).take s.sol.tl.toNat
        respq := s.here.respq ++ [0x3300000000000001] } ∧
      s.SameMemory t ∧
      t = { s with
        sol := { s.sol with solved := true, lastTryPresent := true }
        plan := { s.plan with active := false }
        planIn := none
        core := .idle
        ports := t.ports }) ∧
    (∃ t, exec .planEnd s = .next t ∧
      s.OnlyPortNow t { s.here with respq := s.here.respq ++ [0x3300000000000000] } ∧
      s.SameMemory t ∧
      t = { s with
        sol := { s.sol with lastTryPresent := false }
        plan := { s.plan with active := false }
        planIn := none
        core := .idle
        ports := t.ports })

/-- The row invariant (44_solver.md R259): if every row is a valid slice of a payload, every row still
is after a SWAP or an XOR, and after a SOL.REM of a valid slice. -/
def Obligations.RowsStayValid : Prop :=
  ∀ (payload : List Byte) (sz : Nat) (s t : State) (i : Instr),
    (∀ x ∈ s.sol.rows, x.ValidFor payload sz) →
    (∃ a b, i = .planSwap a b ∨ i = .planXor a b) ∨
      (∃ rs, i = .solRem rs ∧ (s.reg rs).slice.ValidFor payload sz) →
    exec i s = .next t → ∀ x ∈ t.sol.rows, x.ValidFor payload sz

/-- A whole SOL.TRY with any collaborator (44_solver.md R253, R258): the steps of its plan are applied to
the rows, and the plan's end decides: COMPLETE answers the payload, END answers absent, a malformed
token raises F_PLAN with its ordinal and the steps before it stay (60_exceptions.md R304). -/
def Obligations.SessionsEndAsTheirPlansDo : Prop :=
  ∀ (elim : Elim) (plan : Plan) (s : State),
    s.core = .idle → s.sol.ready = true → s.sol.n.toNat ≤ s.solRows →
    elim s.sol.n.toNat (s.sol.rows.map Slice.coef) = plan →
    ∃ t, s.tryWith elim = .next t ∧ s.SameMemory t ∧
      (plan.last = .complete →
        s.OnlyPortNow t { s.here with
          doutq := s.here.doutq ++
            (((plan.apply s.sol.rows).take s.sol.n.toNat).flatMap Slice.data).take s.sol.tl.toNat
          respq := s.here.respq ++ [0x3300000000000001] } ∧
        t = { s with
          sol := { s.sol with rows := plan.apply s.sol.rows, solved := true, lastTryPresent := true }
          plan := ⟨false, BitVec.ofNat 32 plan.steps.length⟩
          planIn := none
          ports := t.ports }) ∧
      (plan.last = .absent →
        s.OnlyPortNow t { s.here with respq := s.here.respq ++ [0x3300000000000000] } ∧
        t = { s with
          sol := { s.sol with rows := plan.apply s.sol.rows, lastTryPresent := false }
          plan := ⟨false, BitVec.ofNat 32 plan.steps.length⟩
          planIn := none
          ports := t.ports }) ∧
      (∀ bad, plan.last = .malformed bad →
        s.OnlyPortNow t { s.here with respq := s.here.respq ++ [0xFF0000000000000C] } ∧
        t = { s with
          sol := { s.sol with rows := plan.apply s.sol.rows }
          fault := ⟨true, 0x0C, BitVec.ofNat 32 s.cmdPort, s.cmdWord,
            BitVec.ofNat 32 plan.steps.length⟩
          core := .halted
          plan := ⟨false, BitVec.ofNat 32 plan.steps.length⟩
          planIn := none
          ports := t.ports })

/-- Result correctness (44_solver.md R260): if every row is a valid slice of a payload of SOL_TL bytes
and the collaborator is correct on them, a SOL.TRY whose plan ends in COMPLETE, as it does when the
rows have full rank (notes/assumptions/25.md), answers exactly the payload. -/
def Obligations.CorrectCollaboratorReconstructsThePayload : Prop :=
  ∀ (elim : Elim) (payload : List Byte) (s : State),
    s.core = .idle → s.sol.ready = true → 1 ≤ s.sol.s.toNat →
    s.sol.n.toNat = ceilDiv s.sol.tl.toNat s.sol.s.toNat → s.sol.n.toNat ≤ s.solRows →
    payload.length = s.sol.tl.toNat → (∀ x ∈ s.sol.rows, x.ValidFor payload s.sol.s.toNat) →
    ElimCorrectAt elim s.sol.n.toNat s.sol.rows →
    (elim s.sol.n.toNat (s.sol.rows.map Slice.coef)).last = .complete ∨
      FullRank s.sol.n.toNat s.sol.rows →
    ∃ t, s.tryWith elim = .next t ∧
      t.core = .idle ∧ t.sol.solved = true ∧ t.sol.lastTryPresent = true ∧
      s.OnlyPortNow t { s.here with
        doutq := s.here.doutq ++ payload
        respq := s.here.respq ++ [0x3300000000000001] }

/-- SWAP, and XOR with two different rows, are invertible row operations: each undoes itself
(44_solver.md R261). -/
def Obligations.RowOperationsUndoThemselves : Prop :=
  ∀ (rows : List Slice) (a b n sz : Nat), (∀ x ∈ rows, x.n = n ∧ x.s = sz) →
    applySwap a b (applySwap a b rows) = rows ∧
    (a ≠ b → applyXor a b (applyXor a b rows) = rows)

/-! ### The agents outside the core -/

/-- The moves of the agents outside the core (00_scope.md R5). A host's push adds at the back of its queue
when there is room and its pop takes from the front; a push to a full queue, a pop from an empty one,
or a port the block does not have, changes nothing (10_state.md R58). The random-bit source hands over
a byte only while GEN.NEXT waits for one of its draw, and the collaborator a token only while SOL.TRY
waits for one; otherwise nothing changes (20_memory.md R97, R98). That a waiting agent's move is a
step, and the form of the two ports, are the model's choice: notes/assumptions/9.md, 10.md, 11.md. -/
def Obligations.AgentsMoveOnlyTheirOwnData : Prop :=
  ∀ (s u : State) (p : Nat) (w : Word64) (b : Byte),
    (s.nextMove = (.pushCmd p w, u) → ∃ t, step s = .next t ∧ t = { u with ports := t.ports } ∧
      (∀ q, q ≠ p → t.port q = u.port q) ∧
      t.port p = if p < u.params.nports ∧ (u.port p).cmdq.length < u.params.cmdDepth then
        { u.port p with cmdq := (u.port p).cmdq ++ [w] } else u.port p) ∧
    (s.nextMove = (.pushByte p b, u) → ∃ t, step s = .next t ∧ t = { u with ports := t.ports } ∧
      (∀ q, q ≠ p → t.port q = u.port q) ∧
      t.port p = if p < u.params.nports ∧ (u.port p).dinq.length < u.params.dinDepth then
        { u.port p with dinq := (u.port p).dinq ++ [b] } else u.port p) ∧
    (s.nextMove = (.popByte p, u) → ∃ t, step s = .next t ∧ t = { u with ports := t.ports } ∧
      (∀ q, q ≠ p → t.port q = u.port q) ∧
      t.port p = { u.port p with doutq := (u.port p).doutq.tail }) ∧
    (s.nextMove = (.popResp p, u) → ∃ t, step s = .next t ∧ t = { u with ports := t.ports } ∧
      (∀ q, q ≠ p → t.port q = u.port q) ∧
      t.port p = { u.port p with respq := (u.port p).respq.tail }) ∧
    (s.nextMove = (.rng b, u) →
      step s = .next (if u.core = .exec .drawing ∧ u.rngIn.length < ceilDiv u.gen.n.toNat 8 then
        { u with rngIn := u.rngIn ++ [b] } else u)) ∧
    (s.nextMove = (.plan w, u) →
      step s = .next (if u.core = .exec .planning ∧ u.planIn = none then
        { u with planIn := some w } else u))
end

