-- ==== Sys2Proof/Laws/State.lean ====
section
/-!
SUPPORT. What each named update of the state leaves in each field: one lemma per field per update,
true by definition, so that no later proof unfolds a record update.
-/

namespace Sys2Proof.Machine

variable (s : State)

/-! ### `State.writeReg` -/

@[simp] theorem State.writeReg_params (k : SIdx) (x : Slice) : (s.writeReg k x).params = s.params := rfl
@[simp] theorem State.writeReg_sregs (k : SIdx) (x : Slice) : (s.writeReg k x).sregs = s.sregs.set k.val ⟨true, x⟩ k.isLt := rfl
@[simp] theorem State.writeReg_pmem (k : SIdx) (x : Slice) : (s.writeReg k x).pmem = s.pmem := rfl
@[simp] theorem State.writeReg_payloadLen (k : SIdx) (x : Slice) : (s.writeReg k x).payloadLen = s.payloadLen := rfl
@[simp] theorem State.writeReg_payValid (k : SIdx) (x : Slice) : (s.writeReg k x).payValid = s.payValid := rfl
@[simp] theorem State.writeReg_gen (k : SIdx) (x : Slice) : (s.writeReg k x).gen = s.gen := rfl
@[simp] theorem State.writeReg_sol (k : SIdx) (x : Slice) : (s.writeReg k x).sol = s.sol := rfl
@[simp] theorem State.writeReg_fault (k : SIdx) (x : Slice) : (s.writeReg k x).fault = s.fault := rfl
@[simp] theorem State.writeReg_ports (k : SIdx) (x : Slice) : (s.writeReg k x).ports = s.ports := rfl
@[simp] theorem State.writeReg_plan (k : SIdx) (x : Slice) : (s.writeReg k x).plan = s.plan := rfl
@[simp] theorem State.writeReg_core (k : SIdx) (x : Slice) : (s.writeReg k x).core = s.core := rfl
@[simp] theorem State.writeReg_cmdPort (k : SIdx) (x : Slice) : (s.writeReg k x).cmdPort = s.cmdPort := rfl
@[simp] theorem State.writeReg_cmdWord (k : SIdx) (x : Slice) : (s.writeReg k x).cmdWord = s.cmdWord := rfl
@[simp] theorem State.writeReg_rngIn (k : SIdx) (x : Slice) : (s.writeReg k x).rngIn = s.rngIn := rfl
@[simp] theorem State.writeReg_rngInst (k : SIdx) (x : Slice) : (s.writeReg k x).rngInst = s.rngInst := rfl
@[simp] theorem State.writeReg_planIn (k : SIdx) (x : Slice) : (s.writeReg k x).planIn = s.planIn := rfl
@[simp] theorem State.writeReg_agenda (k : SIdx) (x : Slice) : (s.writeReg k x).agenda = s.agenda := rfl
@[simp] theorem State.writeReg_envTick (k : SIdx) (x : Slice) : (s.writeReg k x).envTick = s.envTick := rfl

/-! ### `State.setPort` -/

@[simp] theorem State.setPort_params (p : Nat) (q : Port) : (s.setPort p q).params = s.params := rfl
@[simp] theorem State.setPort_sregs (p : Nat) (q : Port) : (s.setPort p q).sregs = s.sregs := rfl
@[simp] theorem State.setPort_pmem (p : Nat) (q : Port) : (s.setPort p q).pmem = s.pmem := rfl
@[simp] theorem State.setPort_payloadLen (p : Nat) (q : Port) : (s.setPort p q).payloadLen = s.payloadLen := rfl
@[simp] theorem State.setPort_payValid (p : Nat) (q : Port) : (s.setPort p q).payValid = s.payValid := rfl
@[simp] theorem State.setPort_gen (p : Nat) (q : Port) : (s.setPort p q).gen = s.gen := rfl
@[simp] theorem State.setPort_sol (p : Nat) (q : Port) : (s.setPort p q).sol = s.sol := rfl
@[simp] theorem State.setPort_fault (p : Nat) (q : Port) : (s.setPort p q).fault = s.fault := rfl
@[simp] theorem State.setPort_ports (p : Nat) (q : Port) : (s.setPort p q).ports = setPortAt s.ports p q := rfl
@[simp] theorem State.setPort_plan (p : Nat) (q : Port) : (s.setPort p q).plan = s.plan := rfl
@[simp] theorem State.setPort_core (p : Nat) (q : Port) : (s.setPort p q).core = s.core := rfl
@[simp] theorem State.setPort_cmdPort (p : Nat) (q : Port) : (s.setPort p q).cmdPort = s.cmdPort := rfl
@[simp] theorem State.setPort_cmdWord (p : Nat) (q : Port) : (s.setPort p q).cmdWord = s.cmdWord := rfl
@[simp] theorem State.setPort_rngIn (p : Nat) (q : Port) : (s.setPort p q).rngIn = s.rngIn := rfl
@[simp] theorem State.setPort_rngInst (p : Nat) (q : Port) : (s.setPort p q).rngInst = s.rngInst := rfl
@[simp] theorem State.setPort_planIn (p : Nat) (q : Port) : (s.setPort p q).planIn = s.planIn := rfl
@[simp] theorem State.setPort_agenda (p : Nat) (q : Port) : (s.setPort p q).agenda = s.agenda := rfl
@[simp] theorem State.setPort_envTick (p : Nat) (q : Port) : (s.setPort p q).envTick = s.envTick := rfl

/-! ### `State.respPush` -/

@[simp] theorem State.respPush_params (w : Word64) : (s.respPush w).params = s.params := rfl
@[simp] theorem State.respPush_sregs (w : Word64) : (s.respPush w).sregs = s.sregs := rfl
@[simp] theorem State.respPush_pmem (w : Word64) : (s.respPush w).pmem = s.pmem := rfl
@[simp] theorem State.respPush_payloadLen (w : Word64) : (s.respPush w).payloadLen = s.payloadLen := rfl
@[simp] theorem State.respPush_payValid (w : Word64) : (s.respPush w).payValid = s.payValid := rfl
@[simp] theorem State.respPush_gen (w : Word64) : (s.respPush w).gen = s.gen := rfl
@[simp] theorem State.respPush_sol (w : Word64) : (s.respPush w).sol = s.sol := rfl
@[simp] theorem State.respPush_fault (w : Word64) : (s.respPush w).fault = s.fault := rfl
@[simp] theorem State.respPush_ports (w : Word64) : (s.respPush w).ports = setPortAt s.ports s.cmdPort { s.here with respq := s.here.respq ++ [w] } := rfl
@[simp] theorem State.respPush_plan (w : Word64) : (s.respPush w).plan = s.plan := rfl
@[simp] theorem State.respPush_core (w : Word64) : (s.respPush w).core = s.core := rfl
@[simp] theorem State.respPush_cmdPort (w : Word64) : (s.respPush w).cmdPort = s.cmdPort := rfl
@[simp] theorem State.respPush_cmdWord (w : Word64) : (s.respPush w).cmdWord = s.cmdWord := rfl
@[simp] theorem State.respPush_rngIn (w : Word64) : (s.respPush w).rngIn = s.rngIn := rfl
@[simp] theorem State.respPush_rngInst (w : Word64) : (s.respPush w).rngInst = s.rngInst := rfl
@[simp] theorem State.respPush_planIn (w : Word64) : (s.respPush w).planIn = s.planIn := rfl
@[simp] theorem State.respPush_agenda (w : Word64) : (s.respPush w).agenda = s.agenda := rfl
@[simp] theorem State.respPush_envTick (w : Word64) : (s.respPush w).envTick = s.envTick := rfl

/-! ### `State.doutPush` -/

@[simp] theorem State.doutPush_params (bytes : List Byte) : (s.doutPush bytes).params = s.params := rfl
@[simp] theorem State.doutPush_sregs (bytes : List Byte) : (s.doutPush bytes).sregs = s.sregs := rfl
@[simp] theorem State.doutPush_pmem (bytes : List Byte) : (s.doutPush bytes).pmem = s.pmem := rfl
@[simp] theorem State.doutPush_payloadLen (bytes : List Byte) : (s.doutPush bytes).payloadLen = s.payloadLen := rfl
@[simp] theorem State.doutPush_payValid (bytes : List Byte) : (s.doutPush bytes).payValid = s.payValid := rfl
@[simp] theorem State.doutPush_gen (bytes : List Byte) : (s.doutPush bytes).gen = s.gen := rfl
@[simp] theorem State.doutPush_sol (bytes : List Byte) : (s.doutPush bytes).sol = s.sol := rfl
@[simp] theorem State.doutPush_fault (bytes : List Byte) : (s.doutPush bytes).fault = s.fault := rfl
@[simp] theorem State.doutPush_ports (bytes : List Byte) : (s.doutPush bytes).ports = setPortAt s.ports s.cmdPort { s.here with doutq := s.here.doutq ++ bytes } := rfl
@[simp] theorem State.doutPush_plan (bytes : List Byte) : (s.doutPush bytes).plan = s.plan := rfl
@[simp] theorem State.doutPush_core (bytes : List Byte) : (s.doutPush bytes).core = s.core := rfl
@[simp] theorem State.doutPush_cmdPort (bytes : List Byte) : (s.doutPush bytes).cmdPort = s.cmdPort := rfl
@[simp] theorem State.doutPush_cmdWord (bytes : List Byte) : (s.doutPush bytes).cmdWord = s.cmdWord := rfl
@[simp] theorem State.doutPush_rngIn (bytes : List Byte) : (s.doutPush bytes).rngIn = s.rngIn := rfl
@[simp] theorem State.doutPush_rngInst (bytes : List Byte) : (s.doutPush bytes).rngInst = s.rngInst := rfl
@[simp] theorem State.doutPush_planIn (bytes : List Byte) : (s.doutPush bytes).planIn = s.planIn := rfl
@[simp] theorem State.doutPush_agenda (bytes : List Byte) : (s.doutPush bytes).agenda = s.agenda := rfl
@[simp] theorem State.doutPush_envTick (bytes : List Byte) : (s.doutPush bytes).envTick = s.envTick := rfl

/-! ### `State.dinDrop` -/

@[simp] theorem State.dinDrop_params (n : Nat) : (s.dinDrop n).params = s.params := rfl
@[simp] theorem State.dinDrop_sregs (n : Nat) : (s.dinDrop n).sregs = s.sregs := rfl
@[simp] theorem State.dinDrop_pmem (n : Nat) : (s.dinDrop n).pmem = s.pmem := rfl
@[simp] theorem State.dinDrop_payloadLen (n : Nat) : (s.dinDrop n).payloadLen = s.payloadLen := rfl
@[simp] theorem State.dinDrop_payValid (n : Nat) : (s.dinDrop n).payValid = s.payValid := rfl
@[simp] theorem State.dinDrop_gen (n : Nat) : (s.dinDrop n).gen = s.gen := rfl
@[simp] theorem State.dinDrop_sol (n : Nat) : (s.dinDrop n).sol = s.sol := rfl
@[simp] theorem State.dinDrop_fault (n : Nat) : (s.dinDrop n).fault = s.fault := rfl
@[simp] theorem State.dinDrop_ports (n : Nat) : (s.dinDrop n).ports = setPortAt s.ports s.cmdPort { s.here with dinq := s.here.dinq.drop n } := rfl
@[simp] theorem State.dinDrop_plan (n : Nat) : (s.dinDrop n).plan = s.plan := rfl
@[simp] theorem State.dinDrop_core (n : Nat) : (s.dinDrop n).core = s.core := rfl
@[simp] theorem State.dinDrop_cmdPort (n : Nat) : (s.dinDrop n).cmdPort = s.cmdPort := rfl
@[simp] theorem State.dinDrop_cmdWord (n : Nat) : (s.dinDrop n).cmdWord = s.cmdWord := rfl
@[simp] theorem State.dinDrop_rngIn (n : Nat) : (s.dinDrop n).rngIn = s.rngIn := rfl
@[simp] theorem State.dinDrop_rngInst (n : Nat) : (s.dinDrop n).rngInst = s.rngInst := rfl
@[simp] theorem State.dinDrop_planIn (n : Nat) : (s.dinDrop n).planIn = s.planIn := rfl
@[simp] theorem State.dinDrop_agenda (n : Nat) : (s.dinDrop n).agenda = s.agenda := rfl
@[simp] theorem State.dinDrop_envTick (n : Nat) : (s.dinDrop n).envTick = s.envTick := rfl

/-! ### `State.answerHalted` -/

@[simp] theorem State.answerHalted_params : s.answerHalted.params = s.params := rfl
@[simp] theorem State.answerHalted_sregs : s.answerHalted.sregs = s.sregs := rfl
@[simp] theorem State.answerHalted_pmem : s.answerHalted.pmem = s.pmem := rfl
@[simp] theorem State.answerHalted_payloadLen : s.answerHalted.payloadLen = s.payloadLen := rfl
@[simp] theorem State.answerHalted_payValid : s.answerHalted.payValid = s.payValid := rfl
@[simp] theorem State.answerHalted_gen : s.answerHalted.gen = s.gen := rfl
@[simp] theorem State.answerHalted_sol : s.answerHalted.sol = s.sol := rfl
@[simp] theorem State.answerHalted_fault : s.answerHalted.fault = s.fault := rfl
@[simp] theorem State.answerHalted_ports : s.answerHalted.ports = setPortAt s.ports s.cmdPort { s.here with respq := s.here.respq ++ [errResponse s.fault.cause] } := rfl
@[simp] theorem State.answerHalted_plan : s.answerHalted.plan = s.plan := rfl
@[simp] theorem State.answerHalted_core : s.answerHalted.core = s.core := rfl
@[simp] theorem State.answerHalted_cmdPort : s.answerHalted.cmdPort = s.cmdPort := rfl
@[simp] theorem State.answerHalted_cmdWord : s.answerHalted.cmdWord = s.cmdWord := rfl
@[simp] theorem State.answerHalted_rngIn : s.answerHalted.rngIn = s.rngIn := rfl
@[simp] theorem State.answerHalted_rngInst : s.answerHalted.rngInst = s.rngInst := rfl
@[simp] theorem State.answerHalted_planIn : s.answerHalted.planIn = s.planIn := rfl
@[simp] theorem State.answerHalted_agenda : s.answerHalted.agenda = s.agenda := rfl
@[simp] theorem State.answerHalted_envTick : s.answerHalted.envTick = s.envTick := rfl

/-! ### `State.raise` -/

@[simp] theorem State.raise_params (t : Trap) : (s.raise t).params = s.params := rfl
@[simp] theorem State.raise_sregs (t : Trap) : (s.raise t).sregs = s.sregs := rfl
@[simp] theorem State.raise_pmem (t : Trap) : (s.raise t).pmem = s.pmem := rfl
@[simp] theorem State.raise_payloadLen (t : Trap) : (s.raise t).payloadLen = s.payloadLen := rfl
@[simp] theorem State.raise_payValid (t : Trap) : (s.raise t).payValid = s.payValid := rfl
@[simp] theorem State.raise_gen (t : Trap) : (s.raise t).gen = s.gen := rfl
@[simp] theorem State.raise_sol (t : Trap) : (s.raise t).sol = s.sol := rfl
@[simp] theorem State.raise_fault (t : Trap) : (s.raise t).fault = s.faultRecord t := rfl
@[simp] theorem State.raise_ports (t : Trap) : (s.raise t).ports = (s.respPush (errResponse t.code.code)).ports := rfl
@[simp] theorem State.raise_plan (t : Trap) : (s.raise t).plan = { s.plan with active := false } := rfl
@[simp] theorem State.raise_core (t : Trap) : (s.raise t).core = .halted := rfl
@[simp] theorem State.raise_cmdPort (t : Trap) : (s.raise t).cmdPort = s.cmdPort := rfl
@[simp] theorem State.raise_cmdWord (t : Trap) : (s.raise t).cmdWord = s.cmdWord := rfl
@[simp] theorem State.raise_rngIn (t : Trap) : (s.raise t).rngIn = s.rngIn := rfl
@[simp] theorem State.raise_rngInst (t : Trap) : (s.raise t).rngInst = s.rngInst := rfl
@[simp] theorem State.raise_planIn (t : Trap) : (s.raise t).planIn = none := rfl
@[simp] theorem State.raise_agenda (t : Trap) : (s.raise t).agenda = s.agenda := rfl
@[simp] theorem State.raise_envTick (t : Trap) : (s.raise t).envTick = s.envTick := rfl

/-! ### `State.rngNew` -/

@[simp] theorem State.rngNew_params : s.rngNew.params = s.params := rfl
@[simp] theorem State.rngNew_sregs : s.rngNew.sregs = s.sregs := rfl
@[simp] theorem State.rngNew_pmem : s.rngNew.pmem = s.pmem := rfl
@[simp] theorem State.rngNew_payloadLen : s.rngNew.payloadLen = s.payloadLen := rfl
@[simp] theorem State.rngNew_payValid : s.rngNew.payValid = s.payValid := rfl
@[simp] theorem State.rngNew_gen : s.rngNew.gen = s.gen := rfl
@[simp] theorem State.rngNew_sol : s.rngNew.sol = s.sol := rfl
@[simp] theorem State.rngNew_fault : s.rngNew.fault = s.fault := rfl
@[simp] theorem State.rngNew_ports : s.rngNew.ports = s.ports := rfl
@[simp] theorem State.rngNew_plan : s.rngNew.plan = s.plan := rfl
@[simp] theorem State.rngNew_core : s.rngNew.core = s.core := rfl
@[simp] theorem State.rngNew_cmdPort : s.rngNew.cmdPort = s.cmdPort := rfl
@[simp] theorem State.rngNew_cmdWord : s.rngNew.cmdWord = s.cmdWord := rfl
@[simp] theorem State.rngNew_rngIn : s.rngNew.rngIn = [] := rfl
@[simp] theorem State.rngNew_rngInst : s.rngNew.rngInst = s.rngInst + 1 := rfl
@[simp] theorem State.rngNew_planIn : s.rngNew.planIn = s.planIn := rfl
@[simp] theorem State.rngNew_agenda : s.rngNew.agenda = s.agenda := rfl
@[simp] theorem State.rngNew_envTick : s.rngNew.envTick = s.envTick := rfl

/-! ### `State.afterDraw` -/

@[simp] theorem State.afterDraw_params : s.afterDraw.params = s.params := rfl
@[simp] theorem State.afterDraw_sregs : s.afterDraw.sregs = s.sregs := rfl
@[simp] theorem State.afterDraw_pmem : s.afterDraw.pmem = s.pmem := rfl
@[simp] theorem State.afterDraw_payloadLen : s.afterDraw.payloadLen = s.payloadLen := rfl
@[simp] theorem State.afterDraw_payValid : s.afterDraw.payValid = s.payValid := rfl
@[simp] theorem State.afterDraw_gen : s.afterDraw.gen = { s.gen with draws := s.gen.draws + 1 } := rfl
@[simp] theorem State.afterDraw_sol : s.afterDraw.sol = s.sol := rfl
@[simp] theorem State.afterDraw_fault : s.afterDraw.fault = s.fault := rfl
@[simp] theorem State.afterDraw_ports : s.afterDraw.ports = s.ports := rfl
@[simp] theorem State.afterDraw_plan : s.afterDraw.plan = s.plan := rfl
@[simp] theorem State.afterDraw_core : s.afterDraw.core = s.core := rfl
@[simp] theorem State.afterDraw_cmdPort : s.afterDraw.cmdPort = s.cmdPort := rfl
@[simp] theorem State.afterDraw_cmdWord : s.afterDraw.cmdWord = s.cmdWord := rfl
@[simp] theorem State.afterDraw_rngIn : s.afterDraw.rngIn = s.rngIn.drop s.drawBytes := rfl
@[simp] theorem State.afterDraw_rngInst : s.afterDraw.rngInst = s.rngInst := rfl
@[simp] theorem State.afterDraw_planIn : s.afterDraw.planIn = s.planIn := rfl
@[simp] theorem State.afterDraw_agenda : s.afterDraw.agenda = s.agenda := rfl
@[simp] theorem State.afterDraw_envTick : s.afterDraw.envTick = s.envTick := rfl

/-! ### `State.emit` -/

@[simp] theorem State.emit_params (k : SIdx) (x : Slice) : (s.emit k x).params = s.params := rfl
@[simp] theorem State.emit_sregs (k : SIdx) (x : Slice) : (s.emit k x).sregs = (s.writeReg k x).sregs := rfl
@[simp] theorem State.emit_pmem (k : SIdx) (x : Slice) : (s.emit k x).pmem = s.pmem := rfl
@[simp] theorem State.emit_payloadLen (k : SIdx) (x : Slice) : (s.emit k x).payloadLen = s.payloadLen := rfl
@[simp] theorem State.emit_payValid (k : SIdx) (x : Slice) : (s.emit k x).payValid = s.payValid := rfl
@[simp] theorem State.emit_gen (k : SIdx) (x : Slice) : (s.emit k x).gen = { s.gen with index := s.gen.index + 1 } := rfl
@[simp] theorem State.emit_sol (k : SIdx) (x : Slice) : (s.emit k x).sol = s.sol := rfl
@[simp] theorem State.emit_fault (k : SIdx) (x : Slice) : (s.emit k x).fault = s.fault := rfl
@[simp] theorem State.emit_ports (k : SIdx) (x : Slice) : (s.emit k x).ports = s.ports := rfl
@[simp] theorem State.emit_plan (k : SIdx) (x : Slice) : (s.emit k x).plan = s.plan := rfl
@[simp] theorem State.emit_core (k : SIdx) (x : Slice) : (s.emit k x).core = .idle := rfl
@[simp] theorem State.emit_cmdPort (k : SIdx) (x : Slice) : (s.emit k x).cmdPort = s.cmdPort := rfl
@[simp] theorem State.emit_cmdWord (k : SIdx) (x : Slice) : (s.emit k x).cmdWord = s.cmdWord := rfl
@[simp] theorem State.emit_rngIn (k : SIdx) (x : Slice) : (s.emit k x).rngIn = s.rngIn := rfl
@[simp] theorem State.emit_rngInst (k : SIdx) (x : Slice) : (s.emit k x).rngInst = s.rngInst := rfl
@[simp] theorem State.emit_planIn (k : SIdx) (x : Slice) : (s.emit k x).planIn = s.planIn := rfl
@[simp] theorem State.emit_agenda (k : SIdx) (x : Slice) : (s.emit k x).agenda = s.agenda := rfl
@[simp] theorem State.emit_envTick (k : SIdx) (x : Slice) : (s.emit k x).envTick = s.envTick := rfl

/-! ### `State.setRows` -/

@[simp] theorem State.setRows_params (rows : List Slice) : (s.setRows rows).params = s.params := rfl
@[simp] theorem State.setRows_sregs (rows : List Slice) : (s.setRows rows).sregs = s.sregs := rfl
@[simp] theorem State.setRows_pmem (rows : List Slice) : (s.setRows rows).pmem = s.pmem := rfl
@[simp] theorem State.setRows_payloadLen (rows : List Slice) : (s.setRows rows).payloadLen = s.payloadLen := rfl
@[simp] theorem State.setRows_payValid (rows : List Slice) : (s.setRows rows).payValid = s.payValid := rfl
@[simp] theorem State.setRows_gen (rows : List Slice) : (s.setRows rows).gen = s.gen := rfl
@[simp] theorem State.setRows_sol (rows : List Slice) : (s.setRows rows).sol = { s.sol with rows := rows } := rfl
@[simp] theorem State.setRows_fault (rows : List Slice) : (s.setRows rows).fault = s.fault := rfl
@[simp] theorem State.setRows_ports (rows : List Slice) : (s.setRows rows).ports = s.ports := rfl
@[simp] theorem State.setRows_plan (rows : List Slice) : (s.setRows rows).plan = s.plan := rfl
@[simp] theorem State.setRows_core (rows : List Slice) : (s.setRows rows).core = s.core := rfl
@[simp] theorem State.setRows_cmdPort (rows : List Slice) : (s.setRows rows).cmdPort = s.cmdPort := rfl
@[simp] theorem State.setRows_cmdWord (rows : List Slice) : (s.setRows rows).cmdWord = s.cmdWord := rfl
@[simp] theorem State.setRows_rngIn (rows : List Slice) : (s.setRows rows).rngIn = s.rngIn := rfl
@[simp] theorem State.setRows_rngInst (rows : List Slice) : (s.setRows rows).rngInst = s.rngInst := rfl
@[simp] theorem State.setRows_planIn (rows : List Slice) : (s.setRows rows).planIn = s.planIn := rfl
@[simp] theorem State.setRows_agenda (rows : List Slice) : (s.setRows rows).agenda = s.agenda := rfl
@[simp] theorem State.setRows_envTick (rows : List Slice) : (s.setRows rows).envTick = s.envTick := rfl

/-! ### `State.appendRow` -/

@[simp] theorem State.appendRow_params (x : Slice) : (s.appendRow x).params = s.params := rfl
@[simp] theorem State.appendRow_sregs (x : Slice) : (s.appendRow x).sregs = s.sregs := rfl
@[simp] theorem State.appendRow_pmem (x : Slice) : (s.appendRow x).pmem = s.pmem := rfl
@[simp] theorem State.appendRow_payloadLen (x : Slice) : (s.appendRow x).payloadLen = s.payloadLen := rfl
@[simp] theorem State.appendRow_payValid (x : Slice) : (s.appendRow x).payValid = s.payValid := rfl
@[simp] theorem State.appendRow_gen (x : Slice) : (s.appendRow x).gen = s.gen := rfl
@[simp] theorem State.appendRow_sol (x : Slice) : (s.appendRow x).sol = { s.sol with rows := s.sol.rows ++ [x] } := rfl
@[simp] theorem State.appendRow_fault (x : Slice) : (s.appendRow x).fault = s.fault := rfl
@[simp] theorem State.appendRow_ports (x : Slice) : (s.appendRow x).ports = s.ports := rfl
@[simp] theorem State.appendRow_plan (x : Slice) : (s.appendRow x).plan = s.plan := rfl
@[simp] theorem State.appendRow_core (x : Slice) : (s.appendRow x).core = s.core := rfl
@[simp] theorem State.appendRow_cmdPort (x : Slice) : (s.appendRow x).cmdPort = s.cmdPort := rfl
@[simp] theorem State.appendRow_cmdWord (x : Slice) : (s.appendRow x).cmdWord = s.cmdWord := rfl
@[simp] theorem State.appendRow_rngIn (x : Slice) : (s.appendRow x).rngIn = s.rngIn := rfl
@[simp] theorem State.appendRow_rngInst (x : Slice) : (s.appendRow x).rngInst = s.rngInst := rfl
@[simp] theorem State.appendRow_planIn (x : Slice) : (s.appendRow x).planIn = s.planIn := rfl
@[simp] theorem State.appendRow_agenda (x : Slice) : (s.appendRow x).agenda = s.agenda := rfl
@[simp] theorem State.appendRow_envTick (x : Slice) : (s.appendRow x).envTick = s.envTick := rfl

/-! ### `State.answerAbsent` -/

@[simp] theorem State.answerAbsent_params : s.answerAbsent.params = s.params := rfl
@[simp] theorem State.answerAbsent_sregs : s.answerAbsent.sregs = s.sregs := rfl
@[simp] theorem State.answerAbsent_pmem : s.answerAbsent.pmem = s.pmem := rfl
@[simp] theorem State.answerAbsent_payloadLen : s.answerAbsent.payloadLen = s.payloadLen := rfl
@[simp] theorem State.answerAbsent_payValid : s.answerAbsent.payValid = s.payValid := rfl
@[simp] theorem State.answerAbsent_gen : s.answerAbsent.gen = s.gen := rfl
@[simp] theorem State.answerAbsent_sol : s.answerAbsent.sol = { s.sol with lastTryPresent := false } := rfl
@[simp] theorem State.answerAbsent_fault : s.answerAbsent.fault = s.fault := rfl
@[simp] theorem State.answerAbsent_ports : s.answerAbsent.ports = (s.respPush (tryResponse false)).ports := rfl
@[simp] theorem State.answerAbsent_plan : s.answerAbsent.plan = s.plan := rfl
@[simp] theorem State.answerAbsent_core : s.answerAbsent.core = s.core := rfl
@[simp] theorem State.answerAbsent_cmdPort : s.answerAbsent.cmdPort = s.cmdPort := rfl
@[simp] theorem State.answerAbsent_cmdWord : s.answerAbsent.cmdWord = s.cmdWord := rfl
@[simp] theorem State.answerAbsent_rngIn : s.answerAbsent.rngIn = s.rngIn := rfl
@[simp] theorem State.answerAbsent_rngInst : s.answerAbsent.rngInst = s.rngInst := rfl
@[simp] theorem State.answerAbsent_planIn : s.answerAbsent.planIn = s.planIn := rfl
@[simp] theorem State.answerAbsent_agenda : s.answerAbsent.agenda = s.agenda := rfl
@[simp] theorem State.answerAbsent_envTick : s.answerAbsent.envTick = s.envTick := rfl

/-! ### `State.openSession` -/

@[simp] theorem State.openSession_params : s.openSession.params = s.params := rfl
@[simp] theorem State.openSession_sregs : s.openSession.sregs = s.sregs := rfl
@[simp] theorem State.openSession_pmem : s.openSession.pmem = s.pmem := rfl
@[simp] theorem State.openSession_payloadLen : s.openSession.payloadLen = s.payloadLen := rfl
@[simp] theorem State.openSession_payValid : s.openSession.payValid = s.payValid := rfl
@[simp] theorem State.openSession_gen : s.openSession.gen = s.gen := rfl
@[simp] theorem State.openSession_sol : s.openSession.sol = s.sol := rfl
@[simp] theorem State.openSession_fault : s.openSession.fault = s.fault := rfl
@[simp] theorem State.openSession_ports : s.openSession.ports = s.ports := rfl
@[simp] theorem State.openSession_plan : s.openSession.plan = ⟨true, 0⟩ := rfl
@[simp] theorem State.openSession_core : s.openSession.core = .exec .planning := rfl
@[simp] theorem State.openSession_cmdPort : s.openSession.cmdPort = s.cmdPort := rfl
@[simp] theorem State.openSession_cmdWord : s.openSession.cmdWord = s.cmdWord := rfl
@[simp] theorem State.openSession_rngIn : s.openSession.rngIn = s.rngIn := rfl
@[simp] theorem State.openSession_rngInst : s.openSession.rngInst = s.rngInst := rfl
@[simp] theorem State.openSession_planIn : s.openSession.planIn = none := rfl
@[simp] theorem State.openSession_agenda : s.openSession.agenda = s.agenda := rfl
@[simp] theorem State.openSession_envTick : s.openSession.envTick = s.envTick := rfl

/-! ### `State.closeSession` -/

@[simp] theorem State.closeSession_params : s.closeSession.params = s.params := rfl
@[simp] theorem State.closeSession_sregs : s.closeSession.sregs = s.sregs := rfl
@[simp] theorem State.closeSession_pmem : s.closeSession.pmem = s.pmem := rfl
@[simp] theorem State.closeSession_payloadLen : s.closeSession.payloadLen = s.payloadLen := rfl
@[simp] theorem State.closeSession_payValid : s.closeSession.payValid = s.payValid := rfl
@[simp] theorem State.closeSession_gen : s.closeSession.gen = s.gen := rfl
@[simp] theorem State.closeSession_sol : s.closeSession.sol = s.sol := rfl
@[simp] theorem State.closeSession_fault : s.closeSession.fault = s.fault := rfl
@[simp] theorem State.closeSession_ports : s.closeSession.ports = s.ports := rfl
@[simp] theorem State.closeSession_plan : s.closeSession.plan = { s.plan with active := false } := rfl
@[simp] theorem State.closeSession_core : s.closeSession.core = .idle := rfl
@[simp] theorem State.closeSession_cmdPort : s.closeSession.cmdPort = s.cmdPort := rfl
@[simp] theorem State.closeSession_cmdWord : s.closeSession.cmdWord = s.cmdWord := rfl
@[simp] theorem State.closeSession_rngIn : s.closeSession.rngIn = s.rngIn := rfl
@[simp] theorem State.closeSession_rngInst : s.closeSession.rngInst = s.rngInst := rfl
@[simp] theorem State.closeSession_planIn : s.closeSession.planIn = none := rfl
@[simp] theorem State.closeSession_agenda : s.closeSession.agenda = s.agenda := rfl
@[simp] theorem State.closeSession_envTick : s.closeSession.envTick = s.envTick := rfl

/-! ### `State.afterToken` -/

@[simp] theorem State.afterToken_params (rows : List Slice) : (s.afterToken rows).params = s.params := rfl
@[simp] theorem State.afterToken_sregs (rows : List Slice) : (s.afterToken rows).sregs = s.sregs := rfl
@[simp] theorem State.afterToken_pmem (rows : List Slice) : (s.afterToken rows).pmem = s.pmem := rfl
@[simp] theorem State.afterToken_payloadLen (rows : List Slice) : (s.afterToken rows).payloadLen = s.payloadLen := rfl
@[simp] theorem State.afterToken_payValid (rows : List Slice) : (s.afterToken rows).payValid = s.payValid := rfl
@[simp] theorem State.afterToken_gen (rows : List Slice) : (s.afterToken rows).gen = s.gen := rfl
@[simp] theorem State.afterToken_sol (rows : List Slice) : (s.afterToken rows).sol = { s.sol with rows := rows } := rfl
@[simp] theorem State.afterToken_fault (rows : List Slice) : (s.afterToken rows).fault = s.fault := rfl
@[simp] theorem State.afterToken_ports (rows : List Slice) : (s.afterToken rows).ports = s.ports := rfl
@[simp] theorem State.afterToken_plan (rows : List Slice) : (s.afterToken rows).plan = { s.plan with k := s.plan.k + 1 } := rfl
@[simp] theorem State.afterToken_core (rows : List Slice) : (s.afterToken rows).core = s.core := rfl
@[simp] theorem State.afterToken_cmdPort (rows : List Slice) : (s.afterToken rows).cmdPort = s.cmdPort := rfl
@[simp] theorem State.afterToken_cmdWord (rows : List Slice) : (s.afterToken rows).cmdWord = s.cmdWord := rfl
@[simp] theorem State.afterToken_rngIn (rows : List Slice) : (s.afterToken rows).rngIn = s.rngIn := rfl
@[simp] theorem State.afterToken_rngInst (rows : List Slice) : (s.afterToken rows).rngInst = s.rngInst := rfl
@[simp] theorem State.afterToken_planIn (rows : List Slice) : (s.afterToken rows).planIn = s.planIn := rfl
@[simp] theorem State.afterToken_agenda (rows : List Slice) : (s.afterToken rows).agenda = s.agenda := rfl
@[simp] theorem State.afterToken_envTick (rows : List Slice) : (s.afterToken rows).envTick = s.envTick := rfl

/-! ### `State.take` -/

@[simp] theorem State.take_params (p : Nat) (w : Word64) : (s.take p w).params = s.params := rfl
@[simp] theorem State.take_sregs (p : Nat) (w : Word64) : (s.take p w).sregs = s.sregs := rfl
@[simp] theorem State.take_pmem (p : Nat) (w : Word64) : (s.take p w).pmem = s.pmem := rfl
@[simp] theorem State.take_payloadLen (p : Nat) (w : Word64) : (s.take p w).payloadLen = s.payloadLen := rfl
@[simp] theorem State.take_payValid (p : Nat) (w : Word64) : (s.take p w).payValid = s.payValid := rfl
@[simp] theorem State.take_gen (p : Nat) (w : Word64) : (s.take p w).gen = s.gen := rfl
@[simp] theorem State.take_sol (p : Nat) (w : Word64) : (s.take p w).sol = s.sol := rfl
@[simp] theorem State.take_fault (p : Nat) (w : Word64) : (s.take p w).fault = s.fault := rfl
@[simp] theorem State.take_ports (p : Nat) (w : Word64) : (s.take p w).ports = setPortAt s.ports p { s.port p with cmdq := (s.port p).cmdq.drop 1 } := rfl
@[simp] theorem State.take_plan (p : Nat) (w : Word64) : (s.take p w).plan = s.plan := rfl
@[simp] theorem State.take_core (p : Nat) (w : Word64) : (s.take p w).core = s.core := rfl
@[simp] theorem State.take_cmdPort (p : Nat) (w : Word64) : (s.take p w).cmdPort = p := rfl
@[simp] theorem State.take_cmdWord (p : Nat) (w : Word64) : (s.take p w).cmdWord = w := rfl
@[simp] theorem State.take_rngIn (p : Nat) (w : Word64) : (s.take p w).rngIn = s.rngIn := rfl
@[simp] theorem State.take_rngInst (p : Nat) (w : Word64) : (s.take p w).rngInst = s.rngInst := rfl
@[simp] theorem State.take_planIn (p : Nat) (w : Word64) : (s.take p w).planIn = s.planIn := rfl
@[simp] theorem State.take_agenda (p : Nat) (w : Word64) : (s.take p w).agenda = s.agenda := rfl
@[simp] theorem State.take_envTick (p : Nat) (w : Word64) : (s.take p w).envTick = s.envTick := rfl

end Sys2Proof.Machine
end

