-- ==== Sys2Proof/Laws/Memory.lean ====
section
/-!
SUPPORT. The laws of data listed by number (payload memory, the ports): a read after a write, and the
canonical form, which every operation keeps.
-/

namespace Sys2Proof.Machine

section Entries
variable {α : Type}

@[simp] theorem entryAt_nil (a : Nat) : entryAt ([] : List (Nat × α)) a = none := rfl

theorem entryAt_cons (k : Nat) (v : α) (l : List (Nat × α)) (a : Nat) :
    entryAt ((k, v) :: l) a = if k = a then some v else entryAt l a := rfl

/-- A number below every listed one is not listed. -/
theorem entryAt_eq_none_of_lt (l : List (Nat × α)) (a : Nat) (h : ∀ e ∈ l, a < e.1) :
    entryAt l a = none := by
  induction l with
  | nil => rfl
  | cons e l ih =>
    obtain ⟨k, v⟩ := e
    have hk : a < k := h (k, v) (by simp)
    rw [entryAt_cons, if_neg (by omega), ih fun e he => h e (by simp [he])]

/-- A read after a write to the same number gives the value written; every other number reads as before. -/
theorem entryAt_setEntry (l : List (Nat × α)) (a b : Nat) (v : α) :
    entryAt (setEntry l a v) b = if a = b then some v else entryAt l b := by
  induction l with
  | nil => rfl
  | cons e l ih =>
    obtain ⟨k, u⟩ := e
    simp only [setEntry]
    split
    · rw [entryAt_cons]
    · split
      · next hk => subst hk; rw [entryAt_cons, entryAt_cons]; split <;> rfl
      · rw [entryAt_cons, ih, entryAt_cons]
        split
        · next hkb => subst hkb; rw [if_neg ‹¬a = k›]
        · rfl

theorem rising_cons (k : Nat) (v : α) (l : List (Nat × α)) :
    Rising ((k, v) :: l) ↔ (∀ e ∈ l, k < e.1) ∧ Rising l := by
  simp [Rising, List.pairwise_cons]

theorem mem_setEntry {l : List (Nat × α)} {a : Nat} {v : α} {e : Nat × α}
    (h : e ∈ setEntry l a v) : e = (a, v) ∨ e ∈ l := by
  induction l with
  | nil => simpa [setEntry] using h
  | cons x l ih =>
    obtain ⟨k, u⟩ := x
    simp only [setEntry] at h
    split at h
    · simpa using h
    · split at h
      · rcases List.mem_cons.1 h with h | h
        · exact Or.inl h
        · exact Or.inr (by simp [h])
      · rcases List.mem_cons.1 h with h | h
        · exact Or.inr (by simp [h])
        · rcases ih h with h | h
          · exact Or.inl h
          · exact Or.inr (by simp [h])

theorem rising_setEntry (l : List (Nat × α)) (a : Nat) (v : α) (h : Rising l) :
    Rising (setEntry l a v) := by
  induction l with
  | nil => simp [setEntry, Rising]
  | cons e l ih =>
    obtain ⟨k, u⟩ := e
    obtain ⟨hk, hl⟩ := (rising_cons k u l).1 h
    simp only [setEntry]
    split
    · refine (rising_cons a v _).2 ⟨fun e he => ?_, h⟩
      rcases List.mem_cons.1 he with rfl | he
      · assumption
      · exact Nat.lt_trans ‹a < k› (hk e he)
    · split
      · next hak => subst hak; exact (rising_cons a v l).2 ⟨hk, hl⟩
      · refine (rising_cons k u _).2 ⟨fun e he => ?_, ih hl⟩
        rcases mem_setEntry he with rfl | he
        · show k < a; omega
        · exact hk e he

theorem entryAt_dropEntry (l : List (Nat × α)) (a b : Nat) :
    entryAt (dropEntry l a) b = if a = b then none else entryAt l b := by
  induction l with
  | nil => simp [dropEntry]
  | cons e l ih =>
    obtain ⟨k, u⟩ := e
    by_cases hk : k = a
    · subst hk
      have : dropEntry ((k, u) :: l) k = dropEntry l k := by simp [dropEntry]
      rw [this, ih, entryAt_cons]; split <;> rfl
    · have : dropEntry ((k, u) :: l) a = (k, u) :: dropEntry l a := by simp [dropEntry, hk]
      rw [this, entryAt_cons, ih, entryAt_cons]
      split
      · next hkb => subst hkb; rw [if_neg (fun h => hk h.symm)]
      · rfl

theorem rising_dropEntry (l : List (Nat × α)) (a : Nat) (h : Rising l) : Rising (dropEntry l a) :=
  List.Pairwise.sublist (List.Sublist.map _ List.filter_sublist) h

end Entries

/-! ### Payload memory -/

@[simp] theorem Memory.read_nil (a : Nat) : Memory.read [] a = none := rfl

theorem Memory.read_write (m : Memory) (a b : Nat) (v : Byte) :
    Memory.read (Memory.write m a v) b = if a = b then some v else Memory.read m b :=
  entryAt_setEntry m a b v

theorem Memory.wf_write (m : Memory) (a : Nat) (v : Byte) (h : Memory.wf m) :
    Memory.wf (Memory.write m a v) := rising_setEntry m a v h

theorem Memory.wf_writeAll (m : Memory) (a : Nat) (bs : List Byte) (h : Memory.wf m) :
    Memory.wf (Memory.writeAll m a bs) := by
  induction bs generalizing m a with
  | nil => exact h
  | cons b bs ih => exact ih _ _ (Memory.wf_write m a b h)

/-- What PAY.LOAD leaves in memory: the bytes written, from `a` on, and everything else as before. -/
theorem Memory.read_writeAll (m : Memory) (a : Nat) (bs : List Byte) (b : Nat) :
    Memory.read (Memory.writeAll m a bs) b =
      if a ≤ b ∧ b < a + bs.length then bs[b - a]? else Memory.read m b := by
  induction bs generalizing m a with
  | nil => rw [if_neg (by simp)]; rfl
  | cons v bs ih =>
    rw [show Memory.writeAll m a (v :: bs) = Memory.writeAll (Memory.write m a v) (a + 1) bs from rfl,
      ih, Memory.read_write]
    rcases Nat.lt_trichotomy a b with h | rfl | h
    · obtain ⟨d, rfl⟩ := Nat.exists_eq_add_of_lt h
      rw [if_neg (by omega : ¬a = a + d + 1), show a + d + 1 - a = d + 1 by omega,
        show a + d + 1 - (a + 1) = d by omega]
      simp only [List.length_cons, List.getElem?_cons_succ]
      by_cases hd : d < bs.length
      · rw [if_pos (by omega), if_pos (by omega)]
      · rw [if_neg (by omega), if_neg (by omega)]
    · rw [if_neg (by omega), if_pos rfl, if_pos (by simp)]; simp
    · rw [if_neg (by omega), if_neg (by omega), if_neg (by omega)]

theorem reset_memory_wf : Memory.wf State.reset.pmem := List.Pairwise.nil

/-! ### The ports -/

theorem portAt_setPortAt (m : PortMap) (p r : Nat) (q : Port) :
    portAt (setPortAt m p q) r = if p = r then q else portAt m r := by
  unfold portAt setPortAt
  split
  · next hq => subst hq; rw [entryAt_dropEntry]; split <;> rfl
  · rw [entryAt_setEntry]; split <;> rfl

theorem PortMap.wf_setPortAt (m : PortMap) (p : Nat) (q : Port) (h : PortMap.wf m) :
    PortMap.wf (setPortAt m p q) := by
  unfold setPortAt
  split
  · exact ⟨rising_dropEntry m p h.1, fun e he => h.2 e (List.mem_of_mem_filter he)⟩
  · refine ⟨rising_setEntry m p q h.1, fun e he => ?_⟩
    rcases mem_setEntry he with rfl | he
    · assumption
    · exact h.2 e he

@[simp] theorem State.port_setPort (s : State) (p r : Nat) (q : Port) :
    (s.setPort p q).port r = if p = r then q else s.port r := portAt_setPortAt s.ports p r q

end Sys2Proof.Machine
end

