-- ==== Sys2Proof/Laws/Operands.lean ====
section
/-!
SUPPORT. The small lemmas of the operand forms: lengths, elements, and the bits of a number made of bits.
-/

namespace Sys2Proof.Machine

/-- Bit `i` of the number made of a list of bits is element `i`, and 0 past its end. -/
theorem testBit_natOfBits (l : List Bool) (i : Nat) : (natOfBits l).testBit i = l.getD i false := by
  induction l generalizing i with
  | nil => simp [natOfBits]
  | cons b l ih =>
    have hb : b.toNat < 2 := by cases b <;> simp
    cases i with
    | zero => cases b <;> simp [natOfBits, Nat.testBit_zero]
    | succ i =>
      have : (b.toNat + 2 * natOfBits l) / 2 = natOfBits l := by omega
      simp [natOfBits, Nat.testBit_succ, this, ih]

theorem natOfBits_lt (l : List Bool) : natOfBits l < 2 ^ l.length := by
  induction l with
  | nil => simp [natOfBits]
  | cons b l ih =>
    have hb : b.toNat < 2 := by cases b <;> simp
    simp only [natOfBits, List.length_cons, Nat.pow_succ]
    omega

theorem getLsbD_ofNat_natOfBits (w : Nat) (l : List Bool) (i : Nat) (h : i < w) :
    (BitVec.ofNat w (natOfBits l)).getLsbD i = l.getD i false := by
  rw [BitVec.getLsbD_ofNat, testBit_natOfBits, decide_eq_true h, Bool.true_and]

@[simp] theorem length_packBits (img : List Byte) (n : Nat) : (packBits img n).length = n := by
  simp [packBits]

theorem getD_packBits (img : List Byte) (n i : Nat) (h : i < n) :
    (packBits img n).getD i false = imageBit img i := by
  simp [packBits, h]

@[simp] theorem length_imageBytes (c : List Bool) : (imageBytes c).length = coefBytes c.length := by
  simp [imageBytes]

/-- Bit `t` of byte `j` of an image is bit `8 j + t` of the vector, 0 past its end. -/
theorem getLsbD_imageByte (c : List Bool) (j t : Nat) (h : t < 8) :
    (imageByte c j).getLsbD t = c.getD (8 * j + t) false := by
  rw [imageByte, getLsbD_ofNat_natOfBits 8 _ t h]
  simp [h]

@[simp] theorem length_image (x : Slice) : x.image.length = imageLength x.n x.s := by
  simp [Slice.image, imageLength, Slice.n, Slice.s]

@[simp] theorem length_unitVector (n i : Nat) : (unitVector n i).length = n := by
  simp [unitVector]

theorem getD_unitVector (n i j : Nat) (h : j < n) : (unitVector n i).getD j false = (j == i) := by
  simp [unitVector, h]

@[simp] theorem length_xorBits (a b : List Bool) :
    (xorBits a b).length = min a.length b.length := by
  simp [xorBits]

@[simp] theorem length_xorBytes (a b : List Byte) :
    (xorBytes a b).length = min a.length b.length := by
  simp [xorBytes]

@[simp] theorem Slice.n_xor (x y : Slice) : (x.xor y).n = min x.n y.n := length_xorBits _ _

@[simp] theorem Slice.s_xor (x y : Slice) : (x.xor y).s = min x.s y.s := length_xorBytes _ _

theorem Slice.sameShape_iff (x y : Slice) : x.sameShape y = true ↔ x.n = y.n ∧ x.s = y.s := by
  simp [Slice.sameShape]

@[simp] theorem mixSlices_nil : mixSlices [] = none := rfl

@[simp] theorem mixSlices_cons (x : Slice) (xs : List Slice) :
    mixSlices (x :: xs) = some (xs.foldl Slice.xor x) := rfl

theorem mem_maskRegs (mask : BitVec 16) (k : SIdx) :
    k ∈ maskRegs mask ↔ mask.getLsbD k.val = true := by
  simp [maskRegs]

theorem mem_selected (sel : List Bool) (i : Nat) :
    i ∈ selected sel ↔ i < sel.length ∧ sel.getD i false = true := by
  simp [selected]

end Sys2Proof.Machine
end

