-- ==== Sys2Proof/Laws/Ops.lean ====
section
/-!
SUPPORT. For each shared operation, once, everything it can do: later proofs cite these instead of
unfolding the operation.
-/

namespace Sys2Proof.Machine

/-! ### Registers and queues -/

theorem State.reg_writeReg (s : State) (k j : SIdx) (x : Slice) :
    (s.writeReg k x).reg j = if k = j then ⟨true, x⟩ else s.reg j := by
  simp [State.reg, State.writeReg, Vector.getElem_set, Fin.ext_iff]

@[simp] theorem State.port_respPush (s : State) (w : Word64) (r : Nat) :
    (s.respPush w).port r =
      if s.cmdPort = r then { s.here with respq := s.here.respq ++ [w] } else s.port r :=
  State.port_setPort s s.cmdPort r _

@[simp] theorem State.port_doutPush (s : State) (bytes : List Byte) (r : Nat) :
    (s.doutPush bytes).port r =
      if s.cmdPort = r then { s.here with doutq := s.here.doutq ++ bytes } else s.port r :=
  State.port_setPort s s.cmdPort r _

@[simp] theorem State.port_dinDrop (s : State) (k r : Nat) :
    (s.dinDrop k).port r =
      if s.cmdPort = r then { s.here with dinq := s.here.dinq.drop k } else s.port r :=
  State.port_setPort s s.cmdPort r _

@[simp] theorem State.port_raise (s : State) (t : Trap) (r : Nat) :
    (s.raise t).port r = (s.respPush (errResponse t.code.code)).port r := rfl

@[simp] theorem State.port_take (s : State) (p : Nat) (w : Word64) (r : Nat) :
    (s.take p w).port r =
      if p = r then { s.port p with cmdq := (s.port p).cmdq.drop 1 } else s.port r :=
  State.port_setPort s p r _

/-! ### Checks -/

@[simp] theorem firstFailing_nil : firstFailing [] = none := rfl

theorem firstFailing_cons (b : Bool) (t : Trap) (l : List (Bool × Trap)) :
    firstFailing ((b, t) :: l) = if b then some t else firstFailing l := rfl

theorem firstFailing_eq_none (l : List (Bool × Trap)) :
    firstFailing l = none ↔ ∀ e ∈ l, e.1 = false := by
  induction l with
  | nil => simp
  | cons e l ih =>
    obtain ⟨b, t⟩ := e
    cases b <;> simp [firstFailing_cons, ih]

/-- The fault reported is that of the first failing check: every check before it passes. -/
theorem firstFailing_eq_some (l : List (Bool × Trap)) (t : Trap) :
    firstFailing l = some t ↔
      ∃ pre post, l = pre ++ (true, t) :: post ∧ ∀ e ∈ pre, e.1 = false := by
  induction l with
  | nil => simp
  | cons e l ih =>
    obtain ⟨b, u⟩ := e
    rw [firstFailing_cons]
    cases b with
    | true =>
      simp only [if_true, Option.some.injEq]
      constructor
      · rintro rfl; exact ⟨[], l, rfl, by simp⟩
      · rintro ⟨pre, post, h, hp⟩
        cases pre with
        | nil => simp at h; exact h.1
        | cons x pre =>
          have := hp x (by simp)
          simp only [List.cons_append, List.cons.injEq] at h
          rw [← h.1] at this; simp at this
    | false =>
      simp only [Bool.false_eq_true, if_false, ih]
      constructor
      · rintro ⟨pre, post, rfl, hp⟩
        exact ⟨(false, u) :: pre, post, rfl, by simpa using hp⟩
      · rintro ⟨pre, post, h, hp⟩
        cases pre with
        | nil => simp at h
        | cons x pre =>
          simp only [List.cons_append, List.cons.injEq] at h
          exact ⟨pre, post, h.2, fun e he => hp e (by simp [he])⟩

/-! ### The frame of a command -/

/-- A command that answers a next state was answered in HALTED, raised the fault of its first failing
check, or had its effect. -/
theorem runCommand_next {s t : State} {c : Option Trap} {e : Host.Outcome State Fault Refusal}
    (h : runCommand s c e = .next t) :
    (s.core = .halted ∧ t = s.answerHalted) ∨
    (s.core = .idle ∧ ∃ u, c = some u ∧ t = s.raise u) ∨
    (s.core = .idle ∧ c = none ∧ e = .next t) := by
  unfold runCommand at h
  split at h
  · cases h; exact .inl ⟨‹_›, rfl⟩
  · cases h
  · split at h
    · cases h; exact .inr (.inl ⟨‹_›, _, rfl, rfl⟩)
    · exact .inr (.inr ⟨‹_›, rfl, h⟩)

theorem runCommand_halted {s : State} (h : s.core = .halted) (c : Option Trap)
    (e : Host.Outcome State Fault Refusal) : runCommand s c e = .next s.answerHalted := by
  simp [runCommand, h]

theorem runCommand_trap {s : State} (h : s.core = .idle) (u : Trap)
    (e : Host.Outcome State Fault Refusal) : runCommand s (some u) e = .next (s.raise u) := by
  simp [runCommand, h]

theorem runCommand_effect {s : State} (h : s.core = .idle)
    (e : Host.Outcome State Fault Refusal) : runCommand s none e = e := by
  simp [runCommand, h]

theorem runCommand_busy {s : State} {g : Progress} (h : s.core = .exec g) (c : Option Trap)
    (e : Host.Outcome State Fault Refusal) : runCommand s c e = .refused .coreBusy := by
  simp [runCommand, h]

/-- DinPop with the bytes there: they are handed on, the rest of the queue stays. -/
theorem withInput_next {s t : State} {k : Nat} {e : List Byte → State → State}
    (h : withInput s k e = .next t) :
    k ≤ s.here.dinq.length ∧ t = e (s.here.dinq.take k) (s.dinDrop k) := by
  unfold withInput at h
  split at h
  · cases h
  · cases h; exact ⟨by omega, rfl⟩

theorem withInput_ready {s : State} {k : Nat} (h : k ≤ s.here.dinq.length)
    (e : List Byte → State → State) :
    withInput s k e = .next (e (s.here.dinq.take k) (s.dinDrop k)) := by
  simp [withInput, Nat.not_lt.2 h]

theorem inSession_next {s t e : State} (h : inSession s e = .next t) :
    s.core = .exec .planning ∧ t = e := by
  unfold inSession at h
  split at h <;> cases h
  exact ⟨‹_›, rfl⟩

theorem inSession_open {s : State} (h : s.core = .exec .planning) (e : State) :
    inSession s e = .next e := by
  simp [inSession, h]

/-! ### Collecting results -/

/-- Every element is there exactly when the list is that of the results. -/
theorem allSome_eq_some {α : Type} (l : List (Option α)) (xs : List α) :
    allSome l = some xs ↔ l = xs.map some := by
  induction l generalizing xs with
  | nil => cases xs <;> simp [allSome]
  | cons o l ih =>
    cases o with
    | none => cases xs <;> simp [allSome]
    | some a =>
      cases xs with
      | nil => simp [allSome]
      | cons x xs =>
        rw [allSome, Option.map_eq_some_iff]
        simp only [List.map_cons, List.cons.injEq, Option.some.injEq]
        constructor
        · rintro ⟨ys, hy, rfl, rfl⟩; exact ⟨rfl, (ih _).1 hy⟩
        · rintro ⟨rfl, h⟩; exact ⟨xs, (ih _).2 h, rfl, rfl⟩

/-! ### The draws of GEN.NEXT -/

/-- A draw that answers a next state holds for bytes, emits the mix of its selection, or is discarded. -/
theorem drawOnce_next {rd : SIdx} {s t : State} (h : drawOnce rd s = .next t) :
    (s.rngIn.length < s.drawBytes ∧ t = { s with core := .exec .drawing }) ∨
    (s.drawBytes ≤ s.rngIn.length ∧ s.drawSel.any id = true ∧
      ∃ x, s.mixSel s.drawSel = some x ∧ t = s.afterDraw.emit rd x) ∨
    (s.drawBytes ≤ s.rngIn.length ∧ s.drawSel.any id = false ∧
      t = { s.afterDraw with core := .exec .drawing }) := by
  unfold drawOnce at h
  split at h
  · cases h; exact .inl ⟨‹_›, rfl⟩
  · have hl : s.drawBytes ≤ s.rngIn.length := by omega
    split at h
    · split at h
      · cases h; exact .inr (.inl ⟨hl, ‹_›, _, ‹_›, rfl⟩)
      · cases h
    · cases h; exact .inr (.inr ⟨hl, Bool.eq_false_iff.2 ‹_›, rfl⟩)

/-! ### Turns of the core -/

/-- A turn of the core that answers a next state held, executed what it fetched, or answered a word
that is no instruction. -/
theorem coreTurn_next {p : Nat} {s t : State} (h : coreTurn p s = .next t) :
    (fetch p s = .hold ∧ t = s) ∨ (∃ i u, fetch p s = .run i u ∧ exec i u = .next t) ∨
    fetch p s = .answered t := by
  unfold coreTurn at h
  split at h
  · cases h; exact .inl ⟨‹_›, rfl⟩
  · exact .inr (.inl ⟨_, _, ‹_›, h⟩)
  · cases h; exact .inr (.inr ‹_›)

theorem State.nextMove_cons {s : State} {e : Event} {rest : List Event} (h : s.agenda = e :: rest) :
    s.nextMove = (e, { s with agenda := rest }) := by
  simp [State.nextMove, h]

/-- A ready command is the head of its queue, and its port, the core and the queues allow it. -/
theorem State.readyCommand_eq_some {s : State} {p : Nat} {w : Word64} :
    s.readyCommand p = some w ↔
      (∃ rest, (s.port p).cmdq = w :: rest) ∧ s.free = true ∧ p < s.params.nports ∧
        s.meets p (s.needs w) = true := by
  unfold State.readyCommand
  cases hq : (s.port p).cmdq with
  | nil => simp
  | cons v rest =>
    simp only [Option.ite_none_right_eq_some, Option.some.injEq, Bool.and_eq_true,
      decide_eq_true_eq, List.cons.injEq, exists_and_left, exists_eq', and_true]
    constructor
    · rintro ⟨⟨⟨h1, h2⟩, h3⟩, rfl⟩; exact ⟨rfl, h1, h2, h3⟩
    · rintro ⟨rfl, h1, h2, h3⟩; exact ⟨⟨⟨h1, h2⟩, h3⟩, rfl⟩

end Sys2Proof.Machine
end

