-- ==== Sys2Proof/Laws/PerInstr.lean ====
section
/-!
SUPPORT. A law proved one instruction at a time: the encoding of each instruction meets its row of
the opcode table, `(w & MASK) = MATCH` (30_encoding.md R113, R119).
-/

namespace Sys2Proof.Laws

namespace MeetsRow

/-- The MASK column of the row of an instruction. -/
def mask : Instr → Word64
  | .nop => 0xFFFFFFFFFFFFFFFF
  | .sync => 0xFFFFFFFFFFFFFFFF
  | .csrr _ => 0xFFFF0000FFFFFFFF
  | .payLoad _ => 0xFFFFFFFF00000000
  | .genInit _ _ => 0xFFFF0000FFFFFFFE
  | .genNext _ => 0xFF0FFFFFFFFFFFFF
  | .slcCreate _ _ _ => 0xFF0F000000000000
  | .slcClone _ _ => 0xFF00FFFFFFFFFFFF
  | .slcXor _ _ => 0xFF00FFFFFFFFFFFF
  | .slcOut _ => 0xFFF0FFFFFFFFFFFF
  | .split _ _ => 0xFF0FFFFF00000000
  | .mix _ _ => 0xFF0F0000FFFFFFFF
  | .solInit _ _ => 0xFFFF000000000000
  | .solRem _ => 0xFFF0FFFFFFFFFFFF
  | .solRemin => 0xFFFFFFFFFFFFFFFF
  | .solTry => 0xFFFFFFFFFFFFFFFF
  | .planEnd => 0xFFFFFFFFFFFFFFFF
  | .planSwap _ _ => 0xF000000000000000
  | .planXor _ _ => 0xF000000000000000
  | .planComplete => 0xFFFFFFFFFFFFFFFF

/-- The MATCH column of the row of an instruction. -/
def pattern : Instr → Word64
  | .nop => 0x0000000000000000
  | .sync => 0x0100000000000000
  | .csrr _ => 0x0200000000000000
  | .payLoad _ => 0x1000000000000000
  | .genInit _ _ => 0x1100000000000000
  | .genNext _ => 0x1200000000000000
  | .slcCreate _ _ _ => 0x2000000000000000
  | .slcClone _ _ => 0x2100000000000000
  | .slcXor _ _ => 0x2200000000000000
  | .slcOut _ => 0x2300000000000000
  | .split _ _ => 0x2800000000000000
  | .mix _ _ => 0x2900000000000000
  | .solInit _ _ => 0x3000000000000000
  | .solRem _ => 0x3100000000000000
  | .solRemin => 0x3200000000000000
  | .solTry => 0x3300000000000000
  | .planEnd => 0x0000000000000000
  | .planSwap _ _ => 0x1000000000000000
  | .planXor _ _ => 0x2000000000000000
  | .planComplete => 0x3000000000000000

/-- The encoding meets the row. -/
def Statement (i : Instr) : Prop := encode i &&& mask i = pattern i

/-- A command word meets a row when its fields do. -/
theorem command_row (op mop : BitVec 8) (rd rs : SIdx) (md ms : BitVec 4) (a16 ma : BitVec 16)
    (imm mi : BitVec 32) {m p : Word64} (hm : (mop ++ md ++ ms ++ ma ++ mi : BitVec 64) = m)
    (hp : ((op &&& mop) ++ (BitVec.ofFin (w := 4) rd &&& md) ++ (BitVec.ofFin (w := 4) rs &&& ms) ++
      (a16 &&& ma) ++ (imm &&& mi) : BitVec 64) = p) :
    commandWord op rd rs a16 imm &&& m = p := by
  rw [← hm, ← hp]
  refine BitVec.and_append.trans ?_
  rw [BitVec.and_append, BitVec.and_append, BitVec.and_append]

/-- A plan token meets a row when its fields do. -/
theorem plan_row (k mk : BitVec 4) (a ma b mb : BitVec 30) {m p : Word64}
    (hm : (mk ++ ma ++ mb : BitVec 64) = m)
    (hp : ((k &&& mk) ++ (a &&& ma) ++ (b &&& mb) : BitVec 64) = p) :
    planWord k a b &&& m = p := by
  rw [← hm, ← hp]
  refine BitVec.and_append.trans ?_
  rw [BitVec.and_append]

theorem nop : Statement .nop := by unfold Statement; decide

theorem sync : Statement .sync := by unfold Statement; decide

theorem csrr (csr : Nat) : Statement (.csrr csr) :=
  command_row (m := 0xFFFF0000FFFFFFFF) (p := 0x0200000000000000)
    0x02 0xFF 0 0 0xF 0xF (BitVec.ofNat 16 csr) 0 0 0xFFFFFFFF
    (by decide) (by simp only [BitVec.ofNat_eq_ofNat, BitVec.and_zero]; decide)

theorem payLoad (len : Nat) : Statement (.payLoad len) :=
  command_row (m := 0xFFFFFFFF00000000) (p := 0x1000000000000000)
    0x10 0xFF 0 0 0xF 0xF 0 0xFFFF (BitVec.ofNat 32 len) 0
    (by decide) (by simp only [BitVec.ofNat_eq_ofNat, BitVec.and_zero]; decide)

theorem genInit (s : Nat) (sys : Bool) : Statement (.genInit s sys) :=
  command_row (m := 0xFFFF0000FFFFFFFE) (p := 0x1100000000000000)
    0x11 0xFF 0 0 0xF 0xF (BitVec.ofNat 16 s) 0 (BitVec.ofNat 32 sys.toNat) 0xFFFFFFFE
    (by decide) (by simp only [BitVec.ofNat_eq_ofNat, BitVec.and_zero]; cases sys <;> decide)

theorem genNext (rd : SIdx) : Statement (.genNext rd) :=
  command_row (m := 0xFF0FFFFFFFFFFFFF) (p := 0x1200000000000000)
    0x12 0xFF rd 0 0 0xF 0 0xFFFF 0 0xFFFFFFFF
    (by decide) (by simp only [BitVec.ofNat_eq_ofNat, BitVec.and_zero]; decide)

theorem slcCreate (rd : SIdx) (s n : Nat) : Statement (.slcCreate rd s n) :=
  command_row (m := 0xFF0F000000000000) (p := 0x2000000000000000)
    0x20 0xFF rd 0 0 0xF (BitVec.ofNat 16 s) 0 (BitVec.ofNat 32 n) 0
    (by decide) (by simp only [BitVec.ofNat_eq_ofNat, BitVec.and_zero]; decide)

theorem slcClone (rd rs : SIdx) : Statement (.slcClone rd rs) :=
  command_row (m := 0xFF00FFFFFFFFFFFF) (p := 0x2100000000000000)
    0x21 0xFF rd rs 0 0 0 0xFFFF 0 0xFFFFFFFF
    (by decide) (by simp only [BitVec.ofNat_eq_ofNat, BitVec.and_zero]; decide)

theorem slcXor (rd rs : SIdx) : Statement (.slcXor rd rs) :=
  command_row (m := 0xFF00FFFFFFFFFFFF) (p := 0x2200000000000000)
    0x22 0xFF rd rs 0 0 0 0xFFFF 0 0xFFFFFFFF
    (by decide) (by simp only [BitVec.ofNat_eq_ofNat, BitVec.and_zero]; decide)

theorem slcOut (rs : SIdx) : Statement (.slcOut rs) :=
  command_row (m := 0xFFF0FFFFFFFFFFFF) (p := 0x2300000000000000)
    0x23 0xFF 0 rs 0xF 0 0 0xFFFF 0 0xFFFFFFFF
    (by decide) (by simp only [BitVec.ofNat_eq_ofNat, BitVec.and_zero]; decide)

theorem split (rd : SIdx) (i : Nat) : Statement (.split rd i) :=
  command_row (m := 0xFF0FFFFF00000000) (p := 0x2800000000000000)
    0x28 0xFF rd 0 0 0xF 0 0xFFFF (BitVec.ofNat 32 i) 0
    (by decide) (by simp only [BitVec.ofNat_eq_ofNat, BitVec.and_zero]; decide)

theorem mix (rd : SIdx) (m : BitVec 16) : Statement (.mix rd m) :=
  command_row (m := 0xFF0F0000FFFFFFFF) (p := 0x2900000000000000)
    0x29 0xFF rd 0 0 0xF m 0 0 0xFFFFFFFF
    (by decide) (by simp only [BitVec.ofNat_eq_ofNat, BitVec.and_zero]; decide)

theorem solInit (s tl : Nat) : Statement (.solInit s tl) :=
  command_row (m := 0xFFFF000000000000) (p := 0x3000000000000000)
    0x30 0xFF 0 0 0xF 0xF (BitVec.ofNat 16 s) 0 (BitVec.ofNat 32 tl) 0
    (by decide) (by simp only [BitVec.ofNat_eq_ofNat, BitVec.and_zero]; decide)

theorem solRem (rs : SIdx) : Statement (.solRem rs) :=
  command_row (m := 0xFFF0FFFFFFFFFFFF) (p := 0x3100000000000000)
    0x31 0xFF 0 rs 0xF 0 0 0xFFFF 0 0xFFFFFFFF
    (by decide) (by simp only [BitVec.ofNat_eq_ofNat, BitVec.and_zero]; decide)

theorem solRemin : Statement .solRemin := by unfold Statement; decide

theorem solTry : Statement .solTry := by unfold Statement; decide

theorem planEnd : Statement .planEnd := by unfold Statement; decide

theorem planSwap (a b : Nat) : Statement (.planSwap a b) :=
  plan_row (m := 0xF000000000000000) (p := 0x1000000000000000)
    0x1 0xF (BitVec.ofNat 30 a) 0 (BitVec.ofNat 30 b) 0
    (by decide) (by simp only [BitVec.ofNat_eq_ofNat, BitVec.and_zero]; decide)

theorem planXor (a b : Nat) : Statement (.planXor a b) :=
  plan_row (m := 0xF000000000000000) (p := 0x2000000000000000)
    0x2 0xF (BitVec.ofNat 30 a) 0 (BitVec.ofNat 30 b) 0
    (by decide) (by simp only [BitVec.ofNat_eq_ofNat, BitVec.and_zero]; decide)

theorem planComplete : Statement .planComplete := by unfold Statement; decide

end MeetsRow

end Sys2Proof.Laws
end

