-- ==== Sys2Proof/Laws/Safety.lean ====
section
/-!
SUPPORT. The small lemmas of the terms of the claims: readiness as the three sizes it compares, plans
and the runs of their tokens, what a state's moves to come do not decide.
-/

namespace Sys2Proof.Machine

/-- The queues meet the needs of a command: input there, room for output and for a response. -/
theorem State.meets_eq_true {s : State} {p : Nat} {d : Needs} :
    s.meets p d = true ↔
      d.din ≤ (s.port p).dinq.length ∧ d.dout ≤ s.doutFree p ∧ d.resp ≤ s.respFree p := by
  simp [State.meets, and_assoc]

/-- Whether a command is ready does not depend on the moves to come. -/
@[simp] theorem State.readyCommand_moves (s : State) (agenda : List Event) (tick p : Nat) :
    ({ s with agenda := agenda, envTick := tick } : State).readyCommand p = s.readyCommand p := rfl

/-! ### Plans -/

/-- A step of a plan keeps the number of rows. -/
@[simp] theorem RowStep.apply_length (rows : List Slice) (r : RowStep) :
    (RowStep.apply rows r).length = rows.length := by
  cases r <;> simp only [RowStep.apply, applySwap, applyXor] <;> split <;> simp

@[simp] theorem Plan.apply_nil (last : Terminator) (rows : List Slice) :
    (⟨[], last⟩ : Plan).apply rows = rows := rfl

@[simp] theorem Plan.apply_cons (r : RowStep) (steps : List RowStep) (last : Terminator)
    (rows : List Slice) :
    (⟨r :: steps, last⟩ : Plan).apply rows = (⟨steps, last⟩ : Plan).apply (r.apply rows) := rfl

/-- The steps of a plan keep the number of rows. -/
@[simp] theorem Plan.apply_length (plan : Plan) (rows : List Slice) :
    (plan.apply rows).length = rows.length := by
  obtain ⟨steps, last⟩ := plan
  induction steps generalizing rows with
  | nil => rfl
  | cons r steps ih => simp [ih]

/-- Tokens that run to a next state: the first does, and the others do from there. -/
theorem runTokens_cons_next {w : Word64} {rest : List Word64} {s t : State} :
    runTokens (w :: rest) s = .next t ↔
      ∃ u, coreTurn s.cmdPort (s.supplyToken w) = .next u ∧ runTokens rest u = .next t := by
  rw [runTokens]
  cases coreTurn s.cmdPort (s.supplyToken w) <;> simp

/-- Tokens run in two parts. -/
theorem runTokens_append_next {xs ys : List Word64} {s t : State} :
    runTokens (xs ++ ys) s = .next t ↔ ∃ u, runTokens xs s = .next u ∧ runTokens ys u = .next t := by
  induction xs generalizing s with
  | nil => simp [runTokens]
  | cons w xs ih =>
    simp only [List.cons_append, runTokens_cons_next, ih]
    exact ⟨fun ⟨u, h, v, hv⟩ => ⟨v, ⟨u, h, hv.1⟩, hv.2⟩, fun ⟨v, ⟨u, h, hv⟩, k⟩ => ⟨u, h, v, hv, k⟩⟩

/-- SOL.TRY with a collaborator: it answers at once and opens no session, or the session it opens gets
the plan made of what is presented. -/
theorem State.tryWith_next {s t : State} {elim : Elim} (h : s.tryWith elim = .next t) :
    ∃ u, exec .solTry s = .next u ∧
      ((u.presented = none ∧ t = u) ∨
        ∃ n rows, u.presented = some (n, rows) ∧ runTokens (elim n.toNat rows).words u = .next t) := by
  unfold State.tryWith at h
  split at h
  · refine ⟨_, ‹_›, ?_⟩
    split at h
    · exact .inr ⟨_, _, ‹_›, h⟩
    · cases h; exact .inl ⟨‹_›, rfl⟩
  · cases h
  · cases h

end Sys2Proof.Machine
end

