-- ==== Sys2Proof/Machine/Assembler.lean ====
section
/-!
DEFINITION. The assembler's rules above the words (30_encoding.md R116, R122, R123): what it refuses, the
register lists of MIX, the pseudo-instructions. The text of a source line is not modelled; `Instr` is
its parsed form.
-/

namespace Sys2Proof.Machine

/-- The word of an instruction; an assembler refuses a number that does not fit its field
(30_encoding.md R122). -/
def assemble (i : Instr) : Option Word64 := if i.wellFormed then some (encode i) else none

/-- The mask of a register list, the OR of `1 << k`; a list that names a register twice is refused
(30_encoding.md R116, R122). -/
def maskOfList (ks : List SIdx) : Option (BitVec 16) :=
  if ks.Nodup then some (ks.foldl (fun m k => m ||| (1#16 <<< k.val)) 0) else none

/-- `MIX Sd, {Sa, Sb, ...}` (30_encoding.md R122). -/
def mixOfList (rd : SIdx) (ks : List SIdx) : Option Instr := (maskOfList ks).map (.mix rd)

/-- `SLC.MOV Sd, Ss` (30_encoding.md R123). -/
def slcMov (rd rs : SIdx) : Instr := .slcClone rd rs

/-- `SLC.ZERO Sd` (30_encoding.md R123). -/
def slcZero (rd : SIdx) : Instr := .slcXor rd rd

/-- `MIX2 Sd, Sa, Sb`, with `a != b` (30_encoding.md R123). -/
def mix2 (rd a b : SIdx) : Option Instr := mixOfList rd [a, b]

/-- `CSRR.STATUS` (30_encoding.md R123). -/
def csrrStatus : Instr := .csrr 0x001

end Sys2Proof.Machine
end

