-- ==== Sys2Proof/Tests/Slice0.lean ====
section
/-!
SUPPORT. The model's own tests: what `wellFormed` refuses, decoded words written out from
30_encoding.md, one step of each instruction from the spec's examples and vectors
(95_test_vectors.md), and for each obligation with hypotheses a state that meets them.
-/

namespace Sys2Proof.Tests

open Sys2Proof.Machine

/-! ### Helpers -/

/-- The block used below: NMAX 20, SMAX 20, PMAX 20, RMAX 5, two ports, W 32, queues of 64. -/
def block : Params := ⟨20, 20, 20, 5, 2, 32, 64, 64, 64, 64⟩

/-- That block right after reset. -/
def bare : State := { State.reset with params := block }

/-- A slice from its bits and bytes. -/
def sl (coef : List Bool) (data : List Byte) : Slice := ⟨coef, data⟩

/-- A port with queues DINQ and CMDQ. -/
def fed (cmds : List Word64) (din : List Byte) (s : State) : State := s.setPort 0 ⟨cmds, din, [], []⟩

/-- S1 = {2,1,[1,0],11}, S2 = {2,1,[1,1],33}, S8 = {3,1,[1,0,0],11}, as 95_test_vectors.md uses them. -/
def loaded : State :=
  ((bare.writeReg 1 (sl [true, false] [0x11])).writeReg 2 (sl [true, true] [0x33])).writeReg 8
    (sl [true, false, false] [0x11])

/-- The payload [AA BB CC] and a generator of slice size 2, so N = 2 (start of V42.1). -/
def encoder (sys : Bool) : State :=
  { loaded with
    pmem := [(0, 0xAA), (1, 0xBB), (2, 0xCC)]
    payloadLen := 3
    payValid := true
    gen := ⟨true, sys, 2, 2, 0, 0, 0⟩ }

/-- A GEN.NEXT S0 of that generator in its random phase, its draw's byte having arrived or not. -/
def drawing (bytes : List Byte) : State :=
  { encoder false with
    core := .exec .drawing
    cmdWord := 0x1200000000000000
    rngIn := bytes }

/-- A solver of slice size 1 and total length 2 with the rows C = [10, 11], D = [11, 33] (V44.5). -/
def decoder : State :=
  { loaded with
    sol := ⟨true, 1, 2, 2, [sl [true, false] [0x11], sl [true, true] [0x33]], false, false⟩ }

/-- The same inside a plan session, with the token that has arrived. -/
def session (token : Option Word64) : State :=
  { decoder with
    core := .exec .planning
    plan := ⟨true, 0⟩
    planIn := token
    cmdWord := 0x3300000000000000 }

/-- The block after `CSRR 0x0FF` (V45.7). -/
def haltedBlock : State :=
  { bare with
    core := .halted
    fault := ⟨true, 0x0D, 0, 0x020000FF00000000, 0xFF⟩ }

/-- A state whose next move is `e`. -/
def next (e : Event) (s : State) : State := { s with agenda := [e] }

/-- The command word `w` at the head of port 0 with input `din`, and the core offered that port. -/
def offered (w : Word64) (din : List Byte) (s : State) : State := next (.core 0) (fed [w] din s)

/-- The outcome is a next state with a property. -/
def runs (o : Host.Outcome State Fault Refusal) (ok : State → Bool) : Bool :=
  match o with
  | .next t => ok t
  | .fault _ => false
  | .refused _ => false

/-- The outcome is a next state. -/
def goes (o : Host.Outcome State Fault Refusal) : Bool := runs o fun _ => true

/-! ### wellFormed refuses what has no encoding (30_encoding.md R122) -/

theorem test_wf_csrr : (Instr.csrr 0x10000).wellFormed = false := by decide
theorem test_wf_payLoad : (Instr.payLoad 0x100000000).wellFormed = false := by decide
theorem test_wf_genInit : (Instr.genInit 0x10000 true).wellFormed = false := by decide
theorem test_wf_slcCreate_s : (Instr.slcCreate 0 0x10000 1).wellFormed = false := by decide
theorem test_wf_slcCreate_n : (Instr.slcCreate 0 1 0x100000000).wellFormed = false := by decide
theorem test_wf_split : (Instr.split 3 0x100000000).wellFormed = false := by decide
theorem test_wf_solInit_s : (Instr.solInit 0x10000 4).wellFormed = false := by decide
theorem test_wf_solInit_tl : (Instr.solInit 1 0x100000000).wellFormed = false := by decide
theorem test_wf_planSwap_a : (Instr.planSwap 0x40000000 0).wellFormed = false := by decide
theorem test_wf_planSwap_b : (Instr.planSwap 0 0x40000000).wellFormed = false := by decide
theorem test_wf_planXor_a : (Instr.planXor 0x40000000 0).wellFormed = false := by decide
theorem test_wf_planXor_b : (Instr.planXor 0 0x40000000).wellFormed = false := by decide

/-! ### Decoding: words written out from 30_encoding.md R111, R112, R118 -/

theorem test_decode_nop : decodeCommand 0x0000000000000000 = .command .nop := by decide
theorem test_decode_sync : decodeCommand 0x0100000000000000 = .command .sync := by decide
theorem test_decode_csrr : decodeCommand 0x0200001300000000 = .command (.csrr 0x13) := by decide
theorem test_decode_payLoad : decodeCommand 0x1000000012345678 = .command (.payLoad 0x12345678) := by
  decide
theorem test_decode_genInit :
    decodeCommand 0x1100000400000001 = .command (.genInit 4 true) ∧
    decodeCommand 0x1100800100000000 = .command (.genInit 0x8001 false) := by decide
theorem test_decode_genNext : decodeCommand 0x12E0000000000000 = .command (.genNext 14) := by decide
theorem test_decode_slcCreate : decodeCommand 0x2050000300000009 = .command (.slcCreate 5 3 9) := by
  decide
theorem test_decode_slcClone : decodeCommand 0x2142000000000000 = .command (.slcClone 4 2) := by decide
theorem test_decode_slcXor : decodeCommand 0x2235000000000000 = .command (.slcXor 3 5) := by decide
theorem test_decode_slcOut : decodeCommand 0x230F000000000000 = .command (.slcOut 15) := by decide
theorem test_decode_split : decodeCommand 0x2830000080000002 = .command (.split 3 0x80000002) := by
  decide
theorem test_decode_mix : decodeCommand 0x2910810600000000 = .command (.mix 1 0x8106) := by decide
theorem test_decode_solInit : decodeCommand 0x3000000200000008 = .command (.solInit 2 8) := by decide
theorem test_decode_solRem : decodeCommand 0x310A000000000000 = .command (.solRem 10) := by decide
theorem test_decode_solRemin : decodeCommand 0x3200000000000000 = .command .solRemin := by decide
theorem test_decode_solTry : decodeCommand 0x3300000000000000 = .command .solTry := by decide
theorem test_decode_planEnd : decodePlan 0x0000000000000000 = some .planEnd := by decide
theorem test_decode_planSwap : decodePlan 0x10000001C0000005 = some (.planSwap 7 5) := by decide
theorem test_decode_planXor : decodePlan 0x20000000C0000002 = some (.planXor 3 2) := by decide
theorem test_decode_planComplete : decodePlan 0x3000000000000000 = some .planComplete := by decide

/-- V45.5, V45.6, V45.8, V43.3, V42.14, V41.8: words that are no command. -/
theorem test_decode_refused_commands :
    decodeCommand 0x0000000000000001 = .reserved ∧ decodeCommand 0x0300000000000000 = .illegal ∧
    decodeCommand 0x0210000000000000 = .reserved ∧ decodeCommand 0x1100000100000002 = .reserved ∧
    decodeCommand 0x2901008000000000 = .reserved ∧ decodeCommand 0x2142000000000001 = .reserved := by
  decide

/-- V44.7, V44.8 and 30_encoding.md R119: words that are no plan token. -/
theorem test_decode_refused_tokens :
    decodePlan 0x4000000000000000 = none ∧ decodePlan 0x3000000000000001 = none ∧
    decodePlan 0x0000000040000000 = none := by decide

/-- 30_encoding.md R122, R123, R124: the words of a register list and of the pseudo-instructions. -/
theorem test_assemble :
    (mixOfList 0 [1, 2]).bind assemble = some 0x2900000600000000 ∧ mixOfList 0 [1, 1] = none ∧
    assemble (slcZero 2) = some 0x2222000000000000 ∧ assemble (slcMov 4 2) = some 0x2142000000000000 ∧
    (mix2 0 1 2).bind assemble = some 0x2900000600000000 ∧ assemble csrrStatus = some 0x0200000100000000 ∧
    assemble (.csrr 0x10000) = none := by decide

/-! ### One step of each instruction -/

/-- V45.4. -/
theorem test_nop : runs (exec .nop loaded) (· == loaded) = true := by decide

/-- V45.3. -/
theorem test_sync : runs (exec .sync bare) (fun t => (t.port 0).respq == [0x0100000000000000]) = true := by
  decide

/-- V45.1, and STATUS after V44.13's solver of T8. -/
theorem test_csrr :
    runs (exec (.csrr 0x000) bare) (fun t => (t.port 0).respq == [0x0200000050425831]) = true ∧
    runs (exec (.csrr 0x001) { decoder with sol := { decoder.sol with solved := true } })
      (fun t => (t.port 0).respq == [0x0200000000000030]) = true := by decide

/-- V45.7: F_CSR. -/
theorem test_csrr_unmapped :
    runs (exec (.csrr 0x0FF) { bare with cmdWord := 0x020000FF00000000 }) (fun t =>
      (t.port 0).respq == [0xFF0000000000000D] &&
      t.fault == ⟨true, 0x0D, 0, 0x020000FF00000000, 0xFF⟩) = true := by decide

/-- 43_generator.md R220's example. -/
theorem test_payLoad :
    runs (exec (.payLoad 4) (fed [] [0x00, 0x01, 0x02, 0x03, 0x99] bare)) (fun t =>
      t.pmem == [(0, 0x00), (1, 0x01), (2, 0x02), (3, 0x03)] && t.payloadLen == 4 && t.payValid &&
      (t.port 0).dinq == [0x99]) = true := by decide

/-- V43.6: PAY.LOAD ends the generator instance. -/
theorem test_payLoad_ends_instance :
    runs (exec (.payLoad 1) (fed [] [0x07] (encoder true))) (fun t =>
      !t.gen.ready && t.gen.systematic && t.pmem == [(0, 0x07), (1, 0xBB), (2, 0xCC)]) = true := by
  decide

/-- V43.5: GEN_N = 1 for three bytes in slices of four. -/
theorem test_genInit :
    runs (exec (.genInit 4 true) (encoder false)) (fun t =>
      t.gen == ⟨true, true, 4, 1, 0, 0, 0⟩ && t.genInSys) = true := by decide

/-- V43.1: F_NO_PAYLOAD. -/
theorem test_genInit_no_payload :
    runs (exec (.genInit 1 false) bare) (fun t => (t.port 0).respq == [0xFF00000000000008]) = true := by
  decide

/-- V43.5: the last segment is padded with zeros, and GEN_IN_SYS becomes 0. -/
theorem test_genNext_systematic :
    runs (exec (.genNext 0) { encoder true with gen := ⟨true, true, 4, 1, 0, 0, 0⟩ }) (fun t =>
      t.reg 0 == ⟨true, sl [true] [0xAA, 0xBB, 0xCC, 0x00]⟩ && !t.genInSys && t.gen.index == 1) = true := by
  decide

/-- A draw whose padding bits alone are set is discarded (V43.4, 43_generator.md R222); one that
selects both segments mixes them. -/
theorem test_genNext_random :
    runs (exec (.genNext 0) (drawing [0xFC])) (fun t =>
      t.core == .exec .drawing && t.gen.draws == 1 && t.rngIn == [] && !(t.reg 0).valid) = true ∧
    runs (exec (.genNext 0) (drawing [0xFF])) (fun t =>
      t.core == .idle && t.reg 0 == ⟨true, sl [true, true] [0x66, 0xBB]⟩) = true := by decide

/-- 41_slice.md R170's second example: 0xFD's bits 2 to 7 are padding. -/
theorem test_slcCreate :
    runs (exec (.slcCreate 0 1 2) (fed [] [0xFD, 0xAB] bare)) (fun t =>
      t.reg 0 == ⟨true, sl [true, false] [0xAB]⟩ && (t.port 0).dinq == []) = true := by decide

/-- V40.1: nine bits from two bytes. -/
theorem test_slcCreate_two_bytes :
    runs (exec (.slcCreate 0 0 9) (fed [] [0xFF, 0xFF] bare)) (fun t =>
      (t.reg 0).slice == sl (List.replicate 9 true) []) = true := by decide

/-- 41_slice.md R171's example. -/
theorem test_slcClone :
    runs (exec (.slcClone 4 2) loaded) (fun t =>
      t.reg 4 == ⟨true, sl [true, true] [0x33]⟩ && t.reg 2 == loaded.reg 2) = true := by decide

/-- V41.5: F_SREG_UNWRITTEN with the register's index. -/
theorem test_slcClone_unwritten :
    runs (exec (.slcClone 4 3) loaded) (fun t =>
      (t.port 0).respq == [0xFF00000000000003] && t.fault.info == 3 && !(t.reg 4).valid) = true := by
  decide

/-- 41_slice.md R172's example. -/
theorem test_slcXor :
    runs (exec (.slcXor 1 2) loaded) (fun t =>
      t.reg 1 == ⟨true, sl [false, true] [0x22]⟩ && t.reg 2 == loaded.reg 2) = true := by decide

/-- V40.3: self-XOR. -/
theorem test_slcXor_self :
    runs (exec (.slcXor 2 2) loaded) (fun t => (t.reg 2).slice == sl [false, false] [0x00]) = true := by
  decide

/-- V41.10: ten bits, then the data. -/
theorem test_slcOut :
    runs (exec (.slcOut 2) (bare.writeReg 2
      (sl [true, false, false, false, false, false, false, false, false, true] [0x7E]))) (fun t =>
      (t.port 0).doutq == [0x01, 0x02, 0x7E]) = true := by decide

/-- 42_split_mix.md R201 and T1: the last segment is padded. -/
theorem test_split :
    runs (exec (.split 3 1) (encoder false)) (fun t =>
      t.reg 3 == ⟨true, sl [false, true] [0xCC, 0x00]⟩ && t.gen == (encoder false).gen) = true := by
  decide

/-- V42.3: F_INDEX. -/
theorem test_split_index :
    runs (exec (.split 3 2) (encoder false)) (fun t =>
      (t.port 0).respq == [0xFF00000000000007] && t.fault.info == 2) = true := by decide

/-- V42.9: the destination is one of the sources. -/
theorem test_mix :
    runs (exec (.mix 1 0x0006) loaded) (fun t =>
      t.reg 1 == ⟨true, sl [false, true] [0x22]⟩) = true := by decide

/-- V42.12: F_SHAPE with the lowest register of another shape. -/
theorem test_mix_shape :
    runs (exec (.mix 0 0x0102) loaded) (fun t =>
      (t.port 0).respq == [0xFF00000000000004] && t.fault.info == 8 && !(t.reg 0).valid) = true := by
  decide

/-- V44.14: SOL.INIT discards the rows. -/
theorem test_solInit :
    runs (exec (.solInit 2 3) decoder) (fun t => t.sol == ⟨true, 2, 3, 2, [], false, false⟩) = true := by
  decide

/-- V44.1: F_BAD_CONFIG. -/
theorem test_solInit_zero_size :
    runs (exec (.solInit 0 4) bare) (fun t => (t.port 0).respq == [0xFF00000000000006]) = true := by decide

/-- 44_solver.md R251's example, as the third row. -/
theorem test_solRem :
    runs (exec (.solRem 1) decoder) (fun t =>
      t.solRows == 3 && rowAt t.sol.rows 2 == sl [true, false] [0x11]) = true := by decide

/-- V44.3: F_SHAPE with the register's index. -/
theorem test_solRem_shape :
    runs (exec (.solRem 8) decoder) (fun t =>
      (t.port 0).respq == [0xFF00000000000004] && t.fault.info == 8 && t.solRows == 2) = true := by decide

/-- 44_solver.md R252's example. -/
theorem test_solRemin :
    runs (exec .solRemin (fed [] [0x03, 0x33] decoder)) (fun t =>
      rowAt t.sol.rows 2 == sl [true, true] [0x33] && (t.port 0).dinq == []) = true := by decide

/-- V44.11: F_ROWS_FULL leaves the input bytes. -/
theorem test_solRemin_full :
    runs (exec .solRemin (fed [] [0x01, 0x11] { decoder with params := { block with rmax := 2 } }))
      (fun t => (t.port 0).respq == [0xFF0000000000000B] && (t.port 0).dinq == [0x01, 0x11]) = true := by
  decide

/-- V44.4: absent at once, with fewer rows than N. -/
theorem test_solTry_absent :
    runs (exec .solTry { decoder with sol := { decoder.sol with rows := [sl [true, false] [0x11]] } })
      (fun t => t.core == .idle && (t.port 0).respq == [0x3300000000000000]) = true := by decide

/-- 44_solver.md R253: a session opens. -/
theorem test_solTry_session :
    runs (exec .solTry decoder) (fun t =>
      t.core == .exec .planning && t.plan == ⟨true, 0⟩ &&
      t.presented == some (2, [[true, false], [true, true]])) = true := by decide

/-- V44.5: an index past the rows is a no-op; 44_solver.md R254's example. -/
theorem test_planSwap :
    runs (exec (.planSwap 7 0) (session none)) (fun t =>
      t.sol.rows == decoder.sol.rows && t.plan.k == 1) = true ∧
    runs (exec (.planSwap 0 1) (session none)) (fun t =>
      t.sol.rows == [sl [true, true] [0x33], sl [true, false] [0x11]]) = true := by decide

/-- 44_solver.md R255's example, and V44.6: a row XORed into itself. -/
theorem test_planXor :
    runs (exec (.planXor 0 1) (session none)) (fun t =>
      t.sol.rows == [sl [true, false] [0x11], sl [false, true] [0x22]]) = true ∧
    runs (exec (.planXor 1 1) (session none)) (fun t =>
      t.sol.rows == [sl [true, false] [0x11], sl [false, false] [0x00]]) = true := by decide

/-- V44.12: the answer is truncated to SOL_TL bytes. -/
theorem test_planComplete :
    runs (exec .planComplete { session none with
      sol := ⟨true, 2, 3, 2, [sl [true, false] [0xAA, 0xBB], sl [false, true] [0xCC, 0x00]], false, false⟩ })
      (fun t => (t.port 0).doutq == [0xAA, 0xBB, 0xCC] && (t.port 0).respq == [0x3300000000000001] &&
        t.sol.solved && t.sol.lastTryPresent && t.core == .idle && !t.plan.active) = true := by decide

/-- 44_solver.md R257, V44.13: absent, and SOL_SOLVED stays. -/
theorem test_planEnd :
    runs (exec .planEnd { session none with sol := { decoder.sol with solved := true, lastTryPresent := true } })
      (fun t => (t.port 0).respq == [0x3300000000000000] && (t.port 0).doutq == [] && t.sol.solved &&
        !t.sol.lastTryPresent && t.core == .idle) = true := by decide

/-! ### Steps -/

/-- V44.7's second token: the ERR word, FAULT_INFO = PLAN_K, the session over. -/
theorem test_step_malformed_token :
    runs (step (next (.core 0) { session (some 0x4000000000000000) with plan := ⟨true, 1⟩ })) (fun t =>
      (t.port 0).respq == [0xFF0000000000000C] && t.fault.info == 1 && !t.plan.active &&
      t.core == .halted && t.sol.rows == decoder.sol.rows) = true := by decide

/-- V45.10: SYNC in HALTED. -/
theorem test_step_halted :
    runs (step (offered 0x0100000000000000 [] haltedBlock)) (fun t =>
      (t.port 0).respq == [0xFF0000000000000D] && t.fault == haltedBlock.fault) = true := by decide

/-- V45.11: reset leaves HALTED. -/
theorem test_step_reset :
    runs (step (next .rst haltedBlock)) (fun t => t == bare) = true := by decide

/-- A word placed by the host's interface is what the next step runs, from the reset state. -/
theorem test_step_withFetchWord :
    runs (step (State.reset.withFetchWord 64 0x0100000000000000)) (fun t =>
      (t.port 0).respq == [0x0100000000000000]) = true ∧
    runs (step (State.reset.withFetchWord 64 0x10000001C0000005)) (fun t =>
      t.core == .exec .planning && t.plan.k == 1) = true := by decide

/-! ### The hypotheses of the obligations can be met: a state and operands for each, at a boundary -/

/-- A block whose queues are too small for the commands tried on it. -/
def cramped : Params := ⟨20, 20, 20, 5, 2, 32, 64, 2, 1, 64⟩

theorem inv_bare : bare.Inv :=
  ⟨by decide, by decide, by decide, by decide, by decide, by decide, by decide, by decide, by decide⟩

theorem inv_encoder : (encoder true).Inv :=
  ⟨by decide, by decide, by decide, by decide, by decide, by decide, by decide, by decide, by decide⟩

theorem inv_drawing : (drawing [0x01]).Inv :=
  ⟨by decide, by decide, by decide, by decide, by decide, by decide, by decide, by decide, by decide⟩

theorem inv_session : (session (some 0)).Inv :=
  ⟨by decide, by decide, by decide, by decide, by decide, by decide, by decide, by decide, by decide⟩

theorem inv_halted : haltedBlock.Inv :=
  ⟨by decide, by decide, by decide, by decide, by decide, by decide, by decide, by decide, by decide⟩

theorem inv_offered : (offered 0x1000000000000014 (List.replicate 20 0) bare).Inv :=
  ⟨by decide, by decide, by decide, by decide, by decide, by decide, by decide, by decide, by decide⟩

/-- PAY.LOAD 3 where DIN_DEPTH is 2, SLC.OUT of two bytes where DOUT_DEPTH is 1. -/
theorem inv_cramped :
    (fed [0x1000000000000003] [0, 0] { loaded with params := cramped }).Inv ∧
    (fed [0x2301000000000000] [] { loaded with params := cramped }).Inv :=
  ⟨⟨by decide, by decide, by decide, by decide, by decide, by decide, by decide, by decide, by decide⟩,
    ⟨by decide, by decide, by decide, by decide, by decide, by decide, by decide, by decide, by decide⟩⟩

theorem witness_DecodeAndEncodeAgree :
    ((Instr.slcCreate 15 0xFFFF 0xFFFFFFFF).wellFormed = true ∧
      (Instr.slcCreate 15 0xFFFF 0xFFFFFFFF).isPlan = false) ∧
    ((Instr.planXor 0x3FFFFFFF 0x3FFFFFFF).wellFormed = true ∧
      (Instr.planXor 0x3FFFFFFF 0x3FFFFFFF).isPlan = true) := by decide

theorem witness_EachWordHasOneMeaning :
    decodeCommand 0x20F0FFFFFFFFFFFF = .command (.slcCreate 15 0xFFFF 0xFFFFFFFF) ∧
    decodePlan 0x2FFFFFFFFFFFFFFF = some (.planXor 0x3FFFFFFF 0x3FFFFFFF) := by decide

theorem witness_RefusedWordsAreTheSpecs :
    decodeCommand 0x3400000000000000 = .illegal ∧ decodeCommand 0x3300000000000001 = .reserved ∧
    decodePlan 0x4000000000000000 = none ∧ decodePlan 0x0000000000000001 = none ∧
    decodePlan 0x3000000000000001 = none := by decide

/-- A command with exactly its input bytes; a plan token; a GEN.NEXT during its hold. -/
theorem witness_StepRunsTheFetchedInstruction :
    ((offered 0x1000000000000003 [1, 2, 3] bare).nextMove =
        (.core 0, { offered 0x1000000000000003 [1, 2, 3] bare with agenda := [] }) ∧
      (offered 0x1000000000000003 [1, 2, 3] bare).readyCommand 0 = some 0x1000000000000003 ∧
      decodeCommand 0x1000000000000003 = .command (.payLoad 3)) ∧
    ((next (.core 1) (session (some 0x3000000000000000))).nextMove =
        (.core 1, session (some 0x3000000000000000)) ∧
      decodePlan 0x3000000000000000 = some .planComplete) ∧
    ((next (.core 0) (drawing [])).nextMove = (.core 0, drawing []) ∧
      decodeCommand (drawing []).cmdWord = .command (.genNext 0)) := by decide

/-- One input byte short; in HALTED; a hold on PlanNext. -/
theorem witness_StepHolds :
    ((offered 0x1000000000000003 [1, 2] bare).nextMove =
        (.core 0, { offered 0x1000000000000003 [1, 2] bare with agenda := [] }) ∧
      (offered 0x1000000000000003 [1, 2] bare).readyCommand 0 = none) ∧
    ((next (.core 0) haltedBlock).nextMove = (.core 0, haltedBlock) ∧
      haltedBlock.core = .halted ∧ haltedBlock.readyCommand 0 = none) ∧
    ((next (.core 0) (session none)).nextMove = (.core 0, session none) ∧
      (session none).core = .exec .planning ∧ (session none).planIn = none) := by decide

theorem witness_BadWordsFault :
    ((offered 0x3400000000000000 [] bare).nextMove =
        (.core 0, fed [0x3400000000000000] [] bare) ∧
      (fed [0x3400000000000000] [] bare).readyCommand 0 = some 0x3400000000000000 ∧
      decodeCommand 0x3400000000000000 = .illegal) ∧
    ((offered 0x0000000000000001 [] bare).nextMove =
        (.core 0, fed [0x0000000000000001] [] bare) ∧
      (fed [0x0000000000000001] [] bare).readyCommand 0 = some 0x0000000000000001 ∧
      decodeCommand 0x0000000000000001 = .reserved) ∧
    ((next (.core 0) (session (some 0x4000000000000000))).nextMove =
        (.core 0, session (some 0x4000000000000000)) ∧
      decodePlan 0x4000000000000000 = none) := by decide

/-- Each size at the last value that fits and at the first that does not; in HALTED; a word that is no
command; a command that faults. -/
theorem witness_CommandsAreReadyExactlyWhenTheirQueuesFit :
    (fed [0x1000000000000003] [1, 2, 3] bare).readyCommand 0 = some 0x1000000000000003 ∧
    (fed [0x1000000000000003] [1, 2] bare).readyCommand 0 = none ∧
    (fed [0x2000000100000009] [1, 2, 3] bare).readyCommand 0 = some 0x2000000100000009 ∧
    (fed [0x2000000100000009] [1, 2] bare).readyCommand 0 = none ∧
    (fed [0x3200000000000000] [3, 0x33] decoder).readyCommand 0 = some 0x3200000000000000 ∧
    (fed [0x3200000000000000] [3] decoder).readyCommand 0 = none ∧
    (decoder.setPort 0 ⟨[0x3300000000000000], [], List.replicate 62 0, List.replicate 63 0⟩).readyCommand 0 =
      some 0x3300000000000000 ∧
    (decoder.setPort 0 ⟨[0x3300000000000000], [], List.replicate 63 0, []⟩).readyCommand 0 = none ∧
    (loaded.setPort 0 ⟨[0x2301000000000000], [], List.replicate 62 0, List.replicate 64 0⟩).readyCommand 0 =
      some 0x2301000000000000 ∧
    (loaded.setPort 0 ⟨[0x2301000000000000], [], List.replicate 63 0, []⟩).readyCommand 0 = none ∧
    (haltedBlock.setPort 0 ⟨[0x3400000000000000], [], [], List.replicate 63 0⟩).readyCommand 0 =
      some 0x3400000000000000 ∧
    (haltedBlock.setPort 0 ⟨[0], [], [], List.replicate 64 0⟩).readyCommand 0 = none ∧
    (bare.setPort 0 ⟨[0x3400000000000000], [], [], List.replicate 64 0⟩).readyCommand 0 = none ∧
    (bare.setPort 1 ⟨[0x3200000000000000], [], List.replicate 64 0, []⟩).readyCommand 1 =
      some 0x3200000000000000 ∧
    (bare.setPort 2 ⟨[0], [], [], []⟩).readyCommand 2 = none := by decide

/-- One byte more than DIN_DEPTH, one byte more than DOUT_DEPTH (the invariant: `inv_cramped`). -/
theorem witness_OversizedCommands :
    (((fed [0x1000000000000003] [0, 0] { loaded with params := cramped }).port 0).cmdq.head? =
        some 0x1000000000000003 ∧
      decodeCommand 0x1000000000000003 = .command (.payLoad 3) ∧
      check (.payLoad 3) (fed [0x1000000000000003] [0, 0] { loaded with params := cramped }) = none ∧
      cramped.dinDepth < 3) ∧
    (((fed [0x2301000000000000] [] { loaded with params := cramped }).port 0).cmdq.head? =
        some 0x2301000000000000 ∧
      decodeCommand 0x2301000000000000 = .command (.slcOut 1) ∧
      check (.slcOut 1) (fed [0x2301000000000000] [] { loaded with params := cramped }) = none ∧
      cramped.doutDepth < ceilDiv (loaded.reg 1).slice.n 8 + (loaded.reg 1).slice.s) := by decide

/-- A block of one port with a SYNC waiting, and the same after it has been served. -/
def waiting : State := fed [0x0100000000000000] [] { bare with params := { block with nports := 1 } }

/-- The run that serves it and then has nothing to do. -/
def servingRun : Nat → State
  | 0 => waiting
  | _ + 1 =>
    { waiting.setPort 0 ⟨[], [], [], [0x0100000000000000]⟩ with cmdWord := 0x0100000000000000 }

/-- A schedule that offers that port for ever is weakly fair. -/
theorem witness_FairSchedulesServeReadyCommands :
    IsRun (fun _ => .core 0) servingRun ∧ WeaklyFair (fun _ => .core 0) servingRun ∧
    (servingRun 0).readyCommand 0 = some 0x0100000000000000 := by
  refine ⟨fun k => ?_, fun p k => ?_, by decide⟩
  · refine ⟨servingRun k, rfl, ?_⟩
    cases k with
    | zero => rfl
    | succ k => rfl
  · refine ⟨k, Nat.le_refl k, ?_⟩
    cases p with
    | zero => exact .inl rfl
    | succ p =>
      right
      cases k <;> simp [servingRun, waiting, fed, State.readyCommand, bare, block, State.setPort]
        <;> split <;> rfl

theorem witness_ResetInputRestoresTheResetValues :
    (next .rst haltedBlock).nextMove = (.rst, haltedBlock) := by decide

/-- Moves of each agent from states that satisfy the invariant. -/
theorem witness_StepKeepsTheInvariant :
    (offered 0x1000000000000014 (List.replicate 20 0) bare).Inv ∧
    goes (step (offered 0x1000000000000014 (List.replicate 20 0) bare)) = true ∧
    (drawing [0x01]).Inv ∧ (session (some 0)).Inv ∧ haltedBlock.Inv :=
  ⟨inv_offered, by decide, inv_drawing, inv_session, inv_halted⟩

theorem witness_StepNeverStops : bare.Inv ∧ (encoder true).Inv := ⟨inv_bare, inv_encoder⟩

theorem witness_ExecKeepsTheCanonicalForms :
    Memory.wf (fed [] [7] (encoder true)).pmem ∧ PortMap.wf (fed [] [7] (encoder true)).ports ∧
    goes (exec (.payLoad 1) (fed [] [7] (encoder true))) = true := by decide

theorem witness_ParametersNeverChange : goes (step (next .rst bare)) = true := by decide

theorem witness_HaltedEndsOnlyByReset :
    (offered 0x0100000000000000 [] haltedBlock).nextMove =
      (.core 0, fed [0x0100000000000000] [] haltedBlock) ∧
    (fed [0x0100000000000000] [] haltedBlock).core = .halted ∧
    goes (step (offered 0x0100000000000000 [] haltedBlock)) = true := by decide

theorem witness_WrittenRegistersStayValid :
    (offered 0x2211000000000000 [] loaded).nextMove = (.core 0, fed [0x2211000000000000] [] loaded) ∧
    goes (step (offered 0x2211000000000000 [] loaded)) = true ∧
    ((offered 0x2211000000000000 [] loaded).reg 1).valid = true := by decide

theorem witness_SolvedIsSticky :
    goes (exec .planEnd { session none with sol := { decoder.sol with solved := true } }) = true := by
  decide

/-- An instruction that is none of the writers, and one that faults. -/
theorem witness_OnlyTheNamedInstructionsWrite :
    goes (exec .sync loaded) = true ∧ goes (exec (.genNext 0) bare) = true := by decide

theorem witness_CommandsUseOnlyTheirOwnPort :
    goes (exec .solRemin (fed [] [0x03, 0x33] decoder)) = true := by decide

theorem witness_FaultingCommandsDoNothingElse :
    loaded.core = .idle ∧ check (.solRem 1) loaded = some ⟨.solUninit, 0⟩ := by decide

/-- A command that would fault, CSRR of the first number past the map, and an illegal word. -/
theorem witness_HaltedAnswersErr :
    haltedBlock.core = .halted ∧ (Instr.genNext 0).isPlan = false ∧
    (Instr.csrr 0x024).isPlan = false ∧ haltedBlock.csr 0x024 = none ∧
    (offered 0x3400000000000000 [] haltedBlock).nextMove =
      (.core 0, fed [0x3400000000000000] [] haltedBlock) ∧
    (fed [0x3400000000000000] [] haltedBlock).readyCommand 0 = some 0x3400000000000000 ∧
    decodeCommand 0x3400000000000000 = .illegal := by decide

/-- Each trap of the slice commands, at the first value that takes it. -/
theorem witness_SliceCommandsTrapInOrder :
    (bare.core = .idle ∧ bare.params.smax < 21 ∧ bare.params.nmax < 21) ∧
    ((loaded.reg 3).valid = false ∧ (loaded.reg 1).valid = true ∧ (loaded.reg 8).valid = true) ∧
    (loaded.reg 1).slice.n ≠ (loaded.reg 8).slice.n ∧
    (bare.gen.ready = false ∧ (encoder true).gen.ready = true ∧ (encoder true).gen.n.toNat ≤ 2) ∧
    ((0x000A : BitVec 16).getLsbD (3 : SIdx).val = true ∧
      ∀ j : SIdx, j < 3 → (0x000A : BitVec 16).getLsbD j.val = true → (loaded.reg j).valid = true) ∧
    ((∀ j : SIdx, (0x0102 : BitVec 16).getLsbD j.val = true → (loaded.reg j).valid = true) ∧
      (0x0102 : BitVec 16).getLsbD (1 : SIdx).val = true ∧
      (∀ j : SIdx, (0x0102 : BitVec 16).getLsbD j.val = true → 1 ≤ j) ∧
      (0x0102 : BitVec 16).getLsbD (8 : SIdx).val = true ∧
      (loaded.reg 8).slice.sameShape (loaded.reg 1).slice = false ∧
      ∀ j : SIdx, j < 8 → (0x0102 : BitVec 16).getLsbD j.val = true →
        (loaded.reg j).slice.sameShape (loaded.reg 1).slice = true) := by decide

theorem witness_GeneratorCommandsTrapInOrder :
    bare.core = .idle ∧ bare.csr 0x024 = none ∧ bare.params.pmax < 21 ∧ bare.payValid = false ∧
    (encoder true).payValid = true ∧ (encoder true).params.smax < 21 ∧
    ({ encoder true with params := { block with nmax := 2 } } : State).params.nmax <
      ceilDiv (encoder true).payloadLen.toNat 1 ∧
    bare.gen.ready = false := by decide

theorem witness_SolverCommandsTrapInOrder :
    bare.core = .idle ∧ bare.params.smax < 21 ∧ bare.params.nmax < ceilDiv 21 1 ∧
    bare.sol.ready = false ∧ decoder.sol.ready = true ∧ (decoder.reg 3).valid = false ∧
    (decoder.reg 8).valid = true ∧ (decoder.reg 8).slice.n ≠ decoder.sol.n.toNat ∧
    (decoder.reg 1).valid = true ∧ (decoder.reg 1).slice.n = decoder.sol.n.toNat ∧
    (decoder.reg 1).slice.s = decoder.sol.s.toNat ∧
    ({ decoder with params := { block with rmax := 2 } } : State).solRows = 2 := by decide

/-- The last CSR of the map, IDLE and HALTED. -/
theorem witness_ControlCommandsComplete :
    bare.core = .idle ∧ bare.csr 0x023 = some 0 ∧ haltedBlock.core = .halted ∧
    haltedBlock.csr 0x002 = some 0x0D := by decide

/-- The largest slice of the block, exactly its bytes in the queue; and the empty slice. -/
theorem witness_SlcCreateWritesTheImage :
    bare.core = .idle ∧ 20 ≤ bare.params.smax ∧ 20 ≤ bare.params.nmax ∧
    ceilDiv 20 8 + 20 ≤ (fed [] (List.replicate 23 0) bare).here.dinq.length ∧
    ceilDiv 0 8 + 0 ≤ bare.here.dinq.length := by decide

theorem witness_SlcCloneCopies : loaded.core = .idle ∧ (loaded.reg 2).valid = true := by decide

/-- Two registers of one shape, and a register with itself. -/
theorem witness_SlcXorCombines :
    loaded.core = .idle ∧ (loaded.reg 1).valid = true ∧ (loaded.reg 2).valid = true ∧
    (loaded.reg 1).slice.n = (loaded.reg 2).slice.n ∧
    (loaded.reg 1).slice.s = (loaded.reg 2).slice.s := by decide

theorem witness_SlcOutPushesTheImage : loaded.core = .idle ∧ (loaded.reg 8).valid = true := by decide

/-- The last, padded segment. -/
theorem witness_SplitWritesTheSegment :
    (encoder true).core = .idle ∧ (encoder true).gen.ready = true ∧ 1 < (encoder true).gen.n.toNat ∧
    (encoder true).PayloadThere := by decide

theorem witness_MixWritesTheParity :
    loaded.core = .idle ∧ (0x0006 : BitVec 16) ≠ 0 ∧
    ∀ k : SIdx, (0x0006 : BitVec 16).getLsbD k.val = true →
      (loaded.reg k).valid = true ∧ (loaded.reg k).slice.n = 2 ∧ (loaded.reg k).slice.s = 1 := by decide

/-- Slices of one shape in two orders; slices valid for the payload [11 22] and their mix. -/
theorem witness_MixLaws :
    [sl [true, false] [0x11], sl [true, true] [0x33]].Perm
      [sl [true, true] [0x33], sl [true, false] [0x11]] ∧
    (∀ x ∈ [sl [true, false] [0x11], sl [true, true] [0x33]],
      x.n = 2 ∧ x.s = 1 ∧ x.n = ceilDiv 2 1 ∧ x.data = combine [0x11, 0x22] 1 x.coef) ∧
    mixSlices [sl [true, false] [0x11], sl [true, true] [0x33]] = some (sl [false, true] [0x22]) ∧
    mixSlices [sl [false, true] [0x22]] = some (sl [false, true] [0x22]) := by decide

theorem witness_XorIsAdditionOverGF2 :
    [true].length = [false].length ∧ [(0x11 : Byte)].length = [(0x22 : Byte)].length := by decide

theorem witness_UnpackPackIsIdentity : 8 ≤ 8 ∧ 8 % 8 = 0 ∧ 8 ≤ 32 ∧ 32 % 8 = 0 := by decide

/-- Three bits in a word of eight: the padding is zero and stays so. -/
theorem witness_PackedXorRefinesTheElementwiseXor :
    8 ≤ 8 ∧ 8 % 8 = 0 ∧ [true, false, true].length = [false, false, true].length ∧
    (Packed.ofBits 8 [true, false, true]).bit 3 = false ∧
    (Packed.ofBits 8 [true, false, true]).xorInto (Packed.ofBits 8 [false, false, true]) =
      some ⟨3, [0x01]⟩ := by decide

theorem witness_PackedPadding : (Packed.ofBits 8 [true, false, true]).PaddingZero := by
  intro j h1 h2
  have h1 : 3 ≤ j := h1
  have h2 : j < 8 := h2
  interval_cases j <;> decide

/-- The largest payload of the block, and the empty one. -/
theorem witness_PayLoadWritesThePayload :
    bare.params.Ok ∧ bare.core = .idle ∧ 20 ≤ bare.params.pmax ∧
    20 ≤ (fed [] (List.replicate 20 0) bare).here.dinq.length ∧ 0 ≤ bare.here.dinq.length := by decide

theorem witness_GenInitMakesAnInstance :
    (encoder true).params.Ok ∧ (encoder true).core = .idle ∧ (encoder true).payValid = true ∧
    20 ≤ (encoder true).params.smax ∧
    ceilDiv (encoder true).payloadLen.toNat 20 ≤ (encoder true).params.nmax := by decide

theorem witness_GenNextEmitsSystematicSlices :
    (encoder true).core = .idle ∧ (encoder true).gen.ready = true ∧ (encoder true).gen.systematic = true ∧
    (encoder true).gen.sysPos.toNat < (encoder true).gen.n.toNat ∧ (encoder true).PayloadThere := by decide

/-- In progress, and just started; the last segment is selected. -/
theorem witness_GenNextEmitsRandomMixes :
    (drawing [0x02]).core = .exec .drawing ∧
    ((encoder false).core = .idle ∧ (encoder false).gen.ready = true ∧ (encoder false).genInSys = false) ∧
    ceilDiv (drawing [0x02]).gen.n.toNat 8 ≤ (drawing [0x02]).rngIn.length ∧
    (∃ i < (drawing [0x02]).gen.n.toNat,
      ((drawing [0x02]).rngIn.getD (i / 8) 0).getLsbD (i % 8) = true) ∧
    (drawing [0x02]).PayloadThere := by decide

/-- No byte yet; a byte whose padding bits alone are set. -/
theorem witness_GenNextHoldsAndDiscards :
    (drawing []).core = .exec .drawing ∧
    (drawing []).rngIn.length < ceilDiv (drawing []).gen.n.toNat 8 ∧
    ceilDiv (drawing [0xFC]).gen.n.toNat 8 ≤ (drawing [0xFC]).rngIn.length ∧
    (∀ i < (drawing [0xFC]).gen.n.toNat,
      ((drawing [0xFC]).rngIn.getD (i / 8) 0).getLsbD (i % 8) = false) := by decide

/-- V43.7's generator, N = 0, and moves of every agent but reset. -/
def emptyDraw : State :=
  { bare with
    payValid := true
    gen := ⟨true, true, 1, 0, 0, 0, 0⟩
    core := .exec .drawing
    cmdWord := 0x1200000000000000
    agenda := [.core 0, .rng 0xFF, .plan 0, .pushCmd 1 0, .core 1] }

theorem witness_EmptyGeneratorLivelocks :
    emptyDraw.core = .exec .drawing ∧ emptyDraw.gen.n = 0 ∧
    decodeCommand emptyDraw.cmdWord = .command (.genNext 0) ∧ ∀ e ∈ emptyDraw.agenda, e ≠ .rst := by
  decide

/-- The same generator and bytes beside other registers and other memory past the payload. -/
theorem witness_GeneratorIsDeterministic :
    ({ drawing [0x03] with sregs := bare.sregs, pmem := (drawing []).pmem ++ [(9, 0x55)] } : State).gen =
      (drawing [0x03]).gen ∧
    (∀ a < (drawing [0x03]).payloadLen.toNat,
      Memory.read ((drawing []).pmem ++ [(9, 0x55)]) a = Memory.read (drawing [0x03]).pmem a) ∧
    goes (exec (.genNext 0) (drawing [0x03])) = true := by decide

/-- A generator with the register S3 = Sys(1) and nothing else written. -/
def validRegs : State :=
  { encoder true with sregs := (bare.writeReg 3 (sl [false, true] [0xCC, 0x00])).sregs }

theorem inv_validRegs : validRegs.Inv :=
  ⟨by decide, by decide, by decide, by decide, by decide, by decide, by decide, by decide, by decide⟩

/-- S1 and S2 are valid for the payload [11 22], without a generator; a generator with a valid S3. -/
theorem witness_SlicesStayValid :
    ((∀ k ∈ sources (.mix 0 0x0006), (loaded.reg k).valid = true ∧
        (loaded.reg k).slice.n = ceilDiv 2 1 ∧ (loaded.reg k).slice.s = 1 ∧
        (loaded.reg k).slice.data = combine [0x11, 0x22] 1 (loaded.reg k).slice.coef) ∧
      runs (exec (.mix 0 0x0006) loaded) (fun t => t.core == .idle) = true ∧
      runs (exec (.slcXor 1 2) loaded) (fun t => t.core == .idle) = true ∧
      runs (exec (.slcClone 0 2) loaded) (fun t => t.core == .idle) = true) ∧
    validRegs.Inv ∧ validRegs.gen.ready = true ∧
    (∀ k : SIdx, (validRegs.reg k).valid = true →
      (validRegs.reg k).slice.n = ceilDiv validRegs.payload.length 2 ∧ (validRegs.reg k).slice.s = 2 ∧
      (validRegs.reg k).slice.data = combine validRegs.payload 2 (validRegs.reg k).slice.coef) ∧
    goes (exec (.genNext 0) validRegs) = true :=
  ⟨by decide, inv_validRegs, by decide, by decide, by decide⟩

theorem witness_SolInitMakesAnInstance :
    bare.params.Ok ∧ bare.core = .idle ∧ 20 ≤ bare.params.smax ∧
    ceilDiv 400 20 ≤ bare.params.nmax ∧ ceilDiv 0 1 ≤ bare.params.nmax := by decide

/-- The last row that fits. -/
theorem witness_SolRemAppendsACopy :
    decoder.core = .idle ∧ decoder.sol.ready = true ∧ (decoder.reg 1).valid = true ∧
    (decoder.reg 1).slice.n = decoder.sol.n.toNat ∧ (decoder.reg 1).slice.s = decoder.sol.s.toNat ∧
    decoder.solRows ≠ ({ block with rmax := 3 } : Params).rmax := by decide

theorem witness_SolReminAppendsTheInput :
    decoder.core = .idle ∧ decoder.sol.ready = true ∧ decoder.solRows ≠ decoder.params.rmax ∧
    ceilDiv decoder.sol.n.toNat 8 + decoder.sol.s.toNat ≤
      (fed [] [0x03, 0x33] decoder).here.dinq.length := by decide

/-- One row short of N, and exactly N rows. -/
theorem witness_SolTryAnswersAbsentOrOpensASession :
    decoder.core = .idle ∧ decoder.sol.ready = true ∧ decoder.sol.n.toNat ≤ decoder.solRows ∧
    (decoder.setRows [sl [true, false] [0x11]]).solRows < decoder.sol.n.toNat := by decide

/-- The last row, and the first index past the rows. -/
theorem witness_PlanSwapExchangesRows :
    (session none).core = .exec .planning ∧ 1 < (session none).solRows ∧ (session none).solRows ≤ 2 := by
  decide

theorem witness_PlanXorAddsRows :
    (session none).core = .exec .planning ∧ 1 < (session none).solRows ∧ (session none).solRows ≤ 2 ∧
    ∀ x ∈ (session none).sol.rows, x.n = 2 ∧ x.s = 1 := by decide

theorem witness_TerminatorsEndTheSession : (session none).core = .exec .planning := by decide

/-- The rows are valid for the payload [11 22], and so is S1. -/
theorem witness_RowsStayValid :
    (∀ x ∈ decoder.sol.rows,
      x.n = ceilDiv 2 1 ∧ x.s = 1 ∧ x.data = combine [0x11, 0x22] 1 x.coef) ∧
    ((decoder.reg 1).slice.n = ceilDiv 2 1 ∧ (decoder.reg 1).slice.s = 1 ∧
      (decoder.reg 1).slice.data = combine [0x11, 0x22] 1 (decoder.reg 1).slice.coef) ∧
    goes (exec (.solRem 1) decoder) = true ∧ goes (exec (.planXor 0 1) (session none)) = true ∧
    goes (exec (.planSwap 0 1) (session none)) = true := by decide

/-- A collaborator whose plan is that of T8, order 1: XOR 0,1, then COMPLETE. -/
def elimT8 : Elim := fun _ _ => ⟨[.xor 0 1], .complete⟩

theorem witness_CorrectCollaboratorReconstructsThePayload :
    decoder.core = .idle ∧ decoder.sol.ready = true ∧ 1 ≤ decoder.sol.s.toNat ∧
    decoder.sol.n.toNat = ceilDiv decoder.sol.tl.toNat decoder.sol.s.toNat ∧
    decoder.sol.n.toNat ≤ decoder.solRows ∧
    ([0x11, 0x22] : List Byte).length = decoder.sol.tl.toNat ∧
    (∀ x ∈ decoder.sol.rows, x.ValidFor [0x11, 0x22] decoder.sol.s.toNat) ∧
    ElimCorrectAt elimT8 decoder.sol.n.toNat decoder.sol.rows ∧
    (elimT8 decoder.sol.n.toNat (decoder.sol.rows.map Slice.coef)).last = .complete := by
  refine ⟨by decide, by decide, by decide, by decide, by decide, by decide, ?_, ⟨fun _ => ?_, fun _ => rfl⟩,
    rfl⟩
  · unfold Slice.ValidFor; decide
  · decide

/-- Plans of each end: T8's, the steps of V44.5 with END, V44.7's malformed token after a step; from a
solver with exactly N rows. -/
theorem witness_SessionsEndAsTheirPlansDo :
    decoder.core = .idle ∧ decoder.sol.ready = true ∧ decoder.sol.n.toNat ≤ decoder.solRows ∧
    runs (decoder.tryWith elimT8) (fun t => (t.port 0).doutq == [0x11, 0x22]) = true ∧
    runs (decoder.tryWith fun _ _ => ⟨[.xor 0 5, .swap 7 0], .absent⟩) (fun t =>
      t.sol.rows == decoder.sol.rows && (t.port 0).respq == [0x3300000000000000]) = true ∧
    runs (decoder.tryWith fun _ _ => ⟨[.xor 0 1], .malformed ⟨0x4000000000000000, by decide⟩⟩) (fun t =>
      (t.port 0).respq == [0xFF0000000000000C] && t.fault.info == 1 &&
      t.sol.rows == [sl [true, false] [0x11], sl [false, true] [0x22]]) = true := by decide

/-- The rows of T8 have rank 2. -/
theorem witness_FullRank : FullRank decoder.sol.n.toNat decoder.sol.rows := by
  intro i hi
  have hi : i < 2 := hi
  interval_cases i
  · exact ⟨[true, false], by decide, by decide⟩
  · exact ⟨[true, true], by decide, by decide⟩

theorem witness_RowOperationsUndoThemselves :
    (∀ x ∈ decoder.sol.rows, x.n = 2 ∧ x.s = 1) ∧ (0 : Nat) ≠ 1 := by decide

theorem witness_AgentsMoveOnlyTheirOwnData :
    (next (.pushCmd 1 0) bare).nextMove = (.pushCmd 1 0, bare) ∧
    (next (.pushByte 2 0) bare).nextMove = (.pushByte 2 0, bare) ∧
    (next (.popByte 0) bare).nextMove = (.popByte 0, bare) ∧
    (next (.popResp 0) bare).nextMove = (.popResp 0, bare) ∧
    (next (.rng 1) (drawing [])).nextMove = (.rng 1, drawing []) ∧
    (next (.plan 0) (session none)).nextMove = (.plan 0, session none) := by decide

end Sys2Proof.Tests
end

/-!
SUPPORT. What an instruction that is executed can do, said once: the relation `Executes` has one
constructor for each way `exec` can answer a next state, and `executes_of_exec` is the inversion of
`exec`. Every rule about instructions below is a case split along it.
-/

namespace Sys2Proof.Machine

/-! ### The states some commands leave, by name -/

/-- The state PAY.LOAD leaves (43_generator.md R220). -/
def State.afterPayLoad (s : State) (len : Nat) : State :=
  { s.dinDrop len with
    pmem := Memory.writeAll s.pmem 0 (s.here.dinq.take len)
    payloadLen := BitVec.ofNat 32 len
    payValid := true
    gen := { s.gen with ready := false } }

/-- The state GEN.INIT leaves (43_generator.md R221). -/
def State.afterGenInit (s : State) (sz : Nat) (sys : Bool) : State :=
  { s.rngNew with
    gen := ⟨true, sys, BitVec.ofNat 16 sz, BitVec.ofNat 32 (ceilDiv s.payloadLen.toNat sz), 0, 0, 0⟩ }

/-- One more systematic slice is emitted (43_generator.md R223). -/
def State.countSystematic (s : State) : State :=
  { s with gen := { s.gen with sysPos := s.gen.sysPos + 1 } }

/-- GEN.NEXT holds on RngDraw (10_state.md R60). -/
def State.holdDraw (s : State) : State := { s with core := .exec .drawing }

/-- The state SOL.INIT leaves (44_solver.md R250). -/
def State.afterSolInit (s : State) (sz tl : Nat) : State :=
  { s with
    sol := ⟨true, BitVec.ofNat 16 sz, BitVec.ofNat 32 tl, BitVec.ofNat 32 (ceilDiv tl sz), [], false,
      false⟩ }

/-- The flags COMPLETE sets (44_solver.md R256). -/
def State.markSolved (s : State) : State :=
  { s with sol := { s.sol with solved := true, lastTryPresent := true } }

/-- GEN.NEXT is at a draw: it holds on one, or starts and no systematic slice is left (43_generator.md
R223). -/
def State.AtDraw (s : State) : Prop :=
  s.core = .exec .drawing ∨ (s.core = .idle ∧ s.gen.ready = true ∧ s.genInSys = false)

/-! ### When the checks of a command pass -/

theorem checkCsrr_eq_none {c : Nat} {s : State} :
    checkCsrr c s = none ↔ (s.csr c).isSome = true := by
  simp [checkCsrr, firstFailing_eq_none, Option.isSome_iff_ne_none]

theorem checkPayLoad_eq_none {len : Nat} {s : State} :
    checkPayLoad len s = none ↔ len ≤ s.params.pmax := by
  simp [checkPayLoad, firstFailing_eq_none]

theorem checkGenInit_eq_none {sz : Nat} {s : State} :
    checkGenInit sz s = none ↔ s.payValid = true ∧ (1 ≤ sz ∧ sz ≤ s.params.smax) ∧
      ceilDiv s.payloadLen.toNat sz ≤ s.params.nmax := by
  simp [checkGenInit, firstFailing_eq_none, Nat.one_le_iff_ne_zero]

theorem checkGenNext_eq_none {s : State} : checkGenNext s = none ↔ s.gen.ready = true := by
  simp [checkGenNext, firstFailing_eq_none]

theorem checkSlcCreate_eq_none {sz n : Nat} {s : State} :
    checkSlcCreate sz n s = none ↔ sz ≤ s.params.smax ∧ n ≤ s.params.nmax := by
  simp [checkSlcCreate, firstFailing_eq_none]

theorem checkSlcClone_eq_none {rs : SIdx} {s : State} :
    checkSlcClone rs s = none ↔ (s.reg rs).valid = true := by
  simp [checkSlcClone, firstFailing_eq_none]

theorem checkSlcXor_eq_none {rd rs : SIdx} {s : State} :
    checkSlcXor rd rs s = none ↔ (s.reg rd).valid = true ∧ (s.reg rs).valid = true ∧
      (s.reg rd).slice.sameShape (s.reg rs).slice = true := by
  simp [checkSlcXor, firstFailing_eq_none]

theorem checkSplit_eq_none {i : Nat} {s : State} :
    checkSplit i s = none ↔ s.gen.ready = true ∧ i < s.gen.n.toNat := by
  simp [checkSplit, firstFailing_eq_none]

/-- A MIX that passes its checks reads written registers only. -/
theorem valid_of_checkMix_eq_none {mask : BitVec 16} {s : State} (h : checkMix mask s = none) :
    ∀ k ∈ maskRegs mask, (s.reg k).valid = true := by
  intro k hk
  have := (firstFailing_eq_none _).1 h (!(s.reg k).valid, ⟨.sregUnwritten, k.val⟩)
    (List.mem_append_left _ (List.mem_cons_of_mem _ (List.mem_map_of_mem hk)))
  simpa using this

theorem checkSolInit_eq_none {sz tl : Nat} {s : State} :
    checkSolInit sz tl s = none ↔ (1 ≤ sz ∧ sz ≤ s.params.smax) ∧ ceilDiv tl sz ≤ s.params.nmax := by
  simp [checkSolInit, firstFailing_eq_none, Nat.one_le_iff_ne_zero]

theorem checkSolRem_eq_none {rs : SIdx} {s : State} :
    checkSolRem rs s = none ↔ s.sol.ready = true ∧ (s.reg rs).valid = true ∧
      ((s.reg rs).slice.n = s.sol.n.toNat ∧ (s.reg rs).slice.s = s.sol.s.toNat) ∧
      s.solRows ≠ s.params.rmax := by
  simp [checkSolRem, firstFailing_eq_none]

theorem checkSolRemin_eq_none {s : State} :
    checkSolRemin s = none ↔ s.sol.ready = true ∧ s.solRows ≠ s.params.rmax := by
  simp [checkSolRemin, firstFailing_eq_none]

theorem checkSolTry_eq_none {s : State} : checkSolTry s = none ↔ s.sol.ready = true := by
  simp [checkSolTry, firstFailing_eq_none]

/-! ### Everything an instruction can do -/

/-- Instruction `i`, executed in `s`, can leave the state given: answered in HALTED, trapped by its
first failing check, or with its effect, one constructor for each. -/
inductive Executes (s : State) : Instr → State → Prop where
  | halted {i : Instr} (hc : s.core = .halted) : Executes s i s.answerHalted
  | trap {i : Instr} {u : Trap} (hc : s.core = .idle) (hk : check i s = some u) : Executes s i (s.raise u)
  | nop (hc : s.core = .idle) : Executes s .nop s
  | sync (hc : s.core = .idle) : Executes s .sync (s.respPush (response 0x01 0))
  | csrr {c : Nat} {v : Word32} (hc : s.core = .idle ∨ s.core = .halted) (hv : s.csr c = some v) :
      Executes s (.csrr c) (s.respPush (response 0x02 v))
  | payLoad {len : Nat} (hc : s.core = .idle) (hk : check (.payLoad len) s = none)
      (hin : len ≤ s.here.dinq.length) : Executes s (.payLoad len) (s.afterPayLoad len)
  | genInit {sz : Nat} {sys : Bool} (hc : s.core = .idle) (hk : check (.genInit sz sys) s = none) :
      Executes s (.genInit sz sys) (s.afterGenInit sz sys)
  | genSystematic {rd : SIdx} {x : Slice} (hc : s.core = .idle) (hsys : s.genInSys = true)
      (hx : s.sys s.gen.sysPos.toNat = some x) :
      Executes s (.genNext rd) (s.countSystematic.emit rd x)
  | genHold {rd : SIdx} (hd : s.AtDraw) (hin : s.rngIn.length < s.drawBytes) :
      Executes s (.genNext rd) s.holdDraw
  | genEmit {rd : SIdx} {x : Slice} (hd : s.AtDraw) (hin : s.drawBytes ≤ s.rngIn.length)
      (hx : s.mixSel s.drawSel = some x) : Executes s (.genNext rd) (s.afterDraw.emit rd x)
  | genDiscard {rd : SIdx} (hd : s.AtDraw) (hin : s.drawBytes ≤ s.rngIn.length) :
      Executes s (.genNext rd) s.afterDraw.holdDraw
  | slcCreate {rd : SIdx} {sz n : Nat} (hc : s.core = .idle)
      (hk : check (.slcCreate rd sz n) s = none) (hin : imageLength n sz ≤ s.here.dinq.length) :
      Executes s (.slcCreate rd sz n) ((s.dinDrop (imageLength n sz)).writeReg rd
        (sliceOfImage n sz (s.here.dinq.take (imageLength n sz))))
  | slcClone {rd rs : SIdx} (hc : s.core = .idle) (hk : check (.slcClone rd rs) s = none) :
      Executes s (.slcClone rd rs) (s.writeReg rd (s.reg rs).slice)
  | slcXor {rd rs : SIdx} (hc : s.core = .idle) (hk : check (.slcXor rd rs) s = none) :
      Executes s (.slcXor rd rs) (s.writeReg rd ((s.reg rd).slice.xor (s.reg rs).slice))
  | slcOut {rs : SIdx} (hc : s.core = .idle) (hk : check (.slcOut rs) s = none) :
      Executes s (.slcOut rs) (s.doutPush (s.reg rs).slice.image)
  | split {rd : SIdx} {j : Nat} {x : Slice} (hc : s.core = .idle) (hk : check (.split rd j) s = none)
      (hx : s.sys j = some x) : Executes s (.split rd j) (s.writeReg rd x)
  | mix {rd : SIdx} {mask : BitVec 16} {x : Slice} (hc : s.core = .idle)
      (hk : check (.mix rd mask) s = none) (hx : mixSlices (s.maskSlices mask) = some x) :
      Executes s (.mix rd mask) (s.writeReg rd x)
  | solInit {sz tl : Nat} (hc : s.core = .idle) (hk : check (.solInit sz tl) s = none) :
      Executes s (.solInit sz tl) (s.afterSolInit sz tl)
  | solRem {rs : SIdx} (hc : s.core = .idle) (hk : check (.solRem rs) s = none) :
      Executes s (.solRem rs) (s.appendRow (s.reg rs).slice)
  | solRemin (hc : s.core = .idle) (hk : check .solRemin s = none)
      (hin : imageLength s.sol.n.toNat s.sol.s.toNat ≤ s.here.dinq.length) :
      Executes s .solRemin ((s.dinDrop (imageLength s.sol.n.toNat s.sol.s.toNat)).appendRow
        (sliceOfImage s.sol.n.toNat s.sol.s.toNat
          (s.here.dinq.take (imageLength s.sol.n.toNat s.sol.s.toNat))))
  | solAbsent (hc : s.core = .idle) (hk : check .solTry s = none) :
      Executes s .solTry s.answerAbsent
  | solOpen (hc : s.core = .idle) (hk : check .solTry s = none) (hr : s.sol.n.toNat ≤ s.solRows) :
      Executes s .solTry s.openSession
  | planSwap {a b : Nat} (hc : s.core = .exec .planning) :
      Executes s (.planSwap a b) (s.afterToken (applySwap a b s.sol.rows))
  | planXor {a b : Nat} (hc : s.core = .exec .planning) :
      Executes s (.planXor a b) (s.afterToken (applyXor a b s.sol.rows))
  | planComplete (hc : s.core = .exec .planning) :
      Executes s .planComplete
        (((s.respPush (tryResponse true)).doutPush s.answer).closeSession.markSolved)
  | planEnd (hc : s.core = .exec .planning) : Executes s .planEnd s.answerAbsent.closeSession

/-- A command in its frame: the frame gives the first two ways, the effect the rest. -/
theorem Executes.of_runCommand {s t : State} {i : Instr} {e : Host.Outcome State Fault Refusal}
    (h : runCommand s (check i s) e = .next t)
    (he : s.core = .idle → check i s = none → e = .next t → Executes s i t) : Executes s i t := by
  obtain ⟨hc, rfl⟩ | ⟨hc, u, hk, rfl⟩ | ⟨hc, hk, ht⟩ := runCommand_next h
  · exact .halted hc
  · exact .trap hc hk
  · exact he hc hk ht

/-- A mask that is not empty has a mix. -/
theorem mixSlices_maskSlices {s : State} {mask : BitVec 16} (h : checkMix mask s = none) :
    ∃ x, mixSlices (s.maskSlices mask) = some x := by
  have hm : mask ≠ 0 := by
    simpa using (firstFailing_eq_none _).1 h (decide (mask = 0), ⟨.emptyMix, 0⟩) (by simp)
  cases hl : maskRegs mask with
  | cons k ks => simp [State.maskSlices, hl]
  | nil =>
    refine absurd (BitVec.eq_of_getLsbD_eq fun j hj => ?_) hm
    have := mt (mem_maskRegs mask ⟨j, hj⟩).2 (by simp [hl])
    simpa using this

theorem executes_csrr {s t : State} {c : Nat} (h : execCsrr c s = .next t) :
    Executes s (.csrr c) t := by
  unfold execCsrr at h
  split at h
  · next hv => exact .of_runCommand h fun _ hk _ => absurd (checkCsrr_eq_none.1 hk) (by simp [hv])
  · split at h <;> cases h
    · exact .csrr (.inl ‹_›) ‹_›
    · exact .csrr (.inr ‹_›) ‹_›

theorem executes_drawOnce {s t : State} {rd : SIdx} (hd : s.AtDraw) (h : drawOnce rd s = .next t) :
    Executes s (.genNext rd) t := by
  obtain ⟨hl, rfl⟩ | ⟨hl, _, x, hx, rfl⟩ | ⟨hl, _, rfl⟩ := drawOnce_next h
  · exact .genHold hd hl
  · exact .genEmit hd hl hx
  · exact .genDiscard hd hl

/-- A GEN.NEXT in progress resumes at its draw. -/
theorem execGenNext_resume {s : State} {rd : SIdx} (h : s.core = .exec .drawing) :
    execGenNext rd s = drawOnce rd s := by
  simp [execGenNext, h]

/-- A GEN.NEXT that does not resume is started as every command. -/
theorem execGenNext_start {s : State} {rd : SIdx} (h : s.core ≠ .exec .drawing) :
    execGenNext rd s = runCommand s (check (.genNext rd) s)
      (if s.genInSys then emitSystematic rd s else drawOnce rd s) := by
  unfold execGenNext
  split
  · exact absurd ‹_› h
  all_goals rfl

theorem executes_genNext {s t : State} {rd : SIdx} (h : execGenNext rd s = .next t) :
    Executes s (.genNext rd) t := by
  by_cases hd : s.core = .exec .drawing
  · rw [execGenNext_resume hd] at h
    exact executes_drawOnce (.inl hd) h
  · rw [execGenNext_start hd] at h
    refine .of_runCommand h fun hc hk he => ?_
    split at he
    · unfold emitSystematic at he
      split at he <;> cases he
      exact .genSystematic hc ‹_› ‹_›
    · exact executes_drawOnce (.inr ⟨hc, checkGenNext_eq_none.1 hk, Bool.eq_false_iff.2 ‹_›⟩) he

theorem executes_solTry {s t : State} (h : execSolTry s = .next t) : Executes s .solTry t := by
  refine .of_runCommand h fun hc hk he => ?_
  split at he <;> cases he
  · exact .solAbsent hc hk
  · exact .solOpen hc hk (Nat.not_lt.1 ‹_›)

/-- The inversion of `exec`: whatever it answers as a next state is one of the ways of `Executes`. -/
theorem executes_of_exec {s t : State} {i : Instr} (h : exec i s = .next t) : Executes s i t := by
  cases i with
  | nop => exact .of_runCommand (i := .nop) h fun hc _ he => by cases he; exact .nop hc
  | sync => exact .of_runCommand (i := .sync) h fun hc _ he => by cases he; exact .sync hc
  | csrr c => exact executes_csrr h
  | payLoad len =>
    refine .of_runCommand h fun hc hk he => ?_
    obtain ⟨hin, rfl⟩ := withInput_next he
    exact .payLoad hc hk hin
  | genInit sz sys => exact .of_runCommand h fun hc hk he => by cases he; exact .genInit hc hk
  | genNext rd => exact executes_genNext h
  | slcCreate rd sz n =>
    refine .of_runCommand h fun hc hk he => ?_
    obtain ⟨hin, rfl⟩ := withInput_next he
    exact .slcCreate hc hk hin
  | slcClone rd rs => exact .of_runCommand h fun hc hk he => by cases he; exact .slcClone hc hk
  | slcXor rd rs => exact .of_runCommand h fun hc hk he => by cases he; exact .slcXor hc hk
  | slcOut rs => exact .of_runCommand h fun hc hk he => by cases he; exact .slcOut hc hk
  | split rd j =>
    refine .of_runCommand h fun hc hk he => ?_
    split at he <;> cases he
    exact .split hc hk ‹_›
  | mix rd mask =>
    refine .of_runCommand h fun hc hk he => ?_
    obtain ⟨x, hx⟩ := mixSlices_maskSlices hk
    simp only [hx, Host.Outcome.next.injEq] at he
    exact he ▸ .mix hc hk hx
  | solInit sz tl => exact .of_runCommand h fun hc hk he => by cases he; exact .solInit hc hk
  | solRem rs => exact .of_runCommand h fun hc hk he => by cases he; exact .solRem hc hk
  | solRemin =>
    refine .of_runCommand h fun hc hk he => ?_
    obtain ⟨hin, rfl⟩ := withInput_next he
    exact .solRemin hc hk hin
  | solTry => exact executes_solTry h
  | planEnd => obtain ⟨hc, rfl⟩ := inSession_next h; exact .planEnd hc
  | planSwap a b => obtain ⟨hc, rfl⟩ := inSession_next h; exact .planSwap hc
  | planXor a b => obtain ⟨hc, rfl⟩ := inSession_next h; exact .planXor hc
  | planComplete => obtain ⟨hc, rfl⟩ := inSession_next h; exact .planComplete hc

end Sys2Proof.Machine

/-!
SUPPORT. What every instruction leaves unchanged and what it can write, field by field, each by the
cases of `Executes`; then the statements of 10_state.md that are about one instruction: O15, O19, O20.
-/

namespace Sys2Proof.Machine

section Fields

variable {s t : State} {i : Instr}

/-- No instruction changes the parameters (10_state.md R48). -/
theorem Executes.params_eq (h : Executes s i t) : t.params = s.params := by cases h <;> rfl

/-- Payload memory, PAYLOAD_LEN and PAY_VALID are written by PAY.LOAD only (10_state.md R33, R34). -/
theorem Executes.payload_eq (h : Executes s i t) (hi : ∀ len, i ≠ .payLoad len) :
    t.pmem = s.pmem ∧ t.payloadLen = s.payloadLen ∧ t.payValid = s.payValid := by
  cases h with
  | @payLoad len => exact absurd rfl (hi len)
  | _ => exact ⟨rfl, rfl, rfl⟩

/-- The generator is written by PAY.LOAD, GEN.INIT and GEN.NEXT only (10_state.md R35). -/
theorem Executes.gen_eq (h : Executes s i t) (hi : writesGenerator i = false) : t.gen = s.gen := by
  cases h with
  | payLoad | genInit | genSystematic | genHold | genEmit | genDiscard => cases hi
  | _ => rfl

/-- The row file is written by SOL.INIT, SOL.REM, SOL.REMIN, SWAP and XOR only (10_state.md R37). -/
theorem Executes.rows_eq (h : Executes s i t) (hi : writesRowFile i = false) :
    t.sol.rows = s.sol.rows := by
  cases h with
  | solInit | solRem | solRemin | planSwap | planXor => cases hi
  | _ => rfl

/-- The fault record is written on the way from IDLE to HALTED only (10_state.md R39). -/
theorem Executes.fault_eq_or_halts (h : Executes s i t) :
    t.fault = s.fault ∨ s.core = .idle ∧ t.core = .halted := by
  cases h with
  | trap hc _ => exact .inr ⟨hc, rfl⟩
  | _ => exact .inl rfl

/-! ### Slice registers -/

/-- A register after a write is as before, or it is the one written, and valid. -/
theorem State.reg_writeReg_cases (s : State) (rd k : SIdx) (x : Slice) :
    (s.writeReg rd x).reg k = s.reg k ∨ k ∈ [rd] ∧ ((s.writeReg rd x).reg k).valid = true := by
  rw [State.reg_writeReg]
  split
  · next hk => exact .inr ⟨by simp [hk], rfl⟩
  · exact .inl rfl

/-- A register is as before, or the instruction names it as its destination and leaves it valid
(10_state.md R31, R32). -/
theorem Executes.reg_cases (h : Executes s i t) (k : SIdx) :
    t.reg k = s.reg k ∨ k ∈ destinations i ∧ (t.reg k).valid = true := by
  cases h with
  | slcCreate | slcClone | slcXor | split | mix => exact State.reg_writeReg_cases _ _ k _
  | genSystematic => exact s.countSystematic.reg_writeReg_cases _ k _
  | genEmit => exact s.afterDraw.reg_writeReg_cases _ k _
  | _ => exact .inl rfl

/-- A valid register stays valid (10_state.md R32). -/
theorem Executes.reg_valid (h : Executes s i t) {k : SIdx} (hk : (s.reg k).valid = true) :
    (t.reg k).valid = true := by
  obtain he | ⟨_, hv⟩ := h.reg_cases k
  · rwa [he]
  · exact hv

/-! ### The solver's flags -/

/-- SOL_READY is written, and SOL_SOLVED cleared, by SOL.INIT only (10_state.md R37, R38). -/
theorem Executes.sol_flags (h : Executes s i t) (hi : ∀ sz tl, i ≠ .solInit sz tl) :
    t.sol.ready = s.sol.ready ∧ (s.sol.solved = true → t.sol.solved = true) := by
  cases h with
  | @solInit sz tl => exact absurd rfl (hi sz tl)
  | planComplete => exact ⟨rfl, fun _ => rfl⟩
  | _ => exact ⟨rfl, id⟩

theorem State.solverPhase_eq_solved :
    s.solverPhase = .solved ↔ s.sol.ready = true ∧ s.sol.solved = true := by
  unfold State.solverPhase
  cases s.sol.ready <;> cases s.sol.solved <;> simp

theorem State.solverPhase_eq_uninit : s.solverPhase = .uninit ↔ s.sol.ready = false := by
  unfold State.solverPhase
  cases s.sol.ready <;> cases s.sol.solved <;> simp

/-! ### The canonical forms -/

/-- Payload memory keeps its canonical form: PAY.LOAD writes it byte by byte. -/
theorem Executes.memory_wf (h : Executes s i t) (hm : Memory.wf s.pmem) : Memory.wf t.pmem := by
  cases h with
  | payLoad => exact Memory.wf_writeAll _ _ _ hm
  | _ => exact hm

/-- The ports keep their canonical form: the queues of a port are only ever replaced whole. -/
theorem Executes.ports_wf (h : Executes s i t) (hp : PortMap.wf s.ports) : PortMap.wf t.ports := by
  cases h with
  | halted | trap | sync | csrr | payLoad | slcCreate | slcOut | solRemin | solAbsent | planEnd =>
    exact PortMap.wf_setPortAt _ _ _ hp
  | planComplete => exact PortMap.wf_setPortAt _ _ _ (PortMap.wf_setPortAt _ _ _ hp)
  | _ => exact hp

end Fields

/-! ### The statements -/

/-- Settles O15. -/
theorem execKeepsTheCanonicalForms : Obligations.ExecKeepsTheCanonicalForms := by
  intro i s t hm hp h
  have he := executes_of_exec h
  exact ⟨he.memory_wf hm, he.ports_wf hp⟩

/-- Settles O19: the phase is a function of two flags, and SOL.INIT alone can clear them. -/
theorem solvedIsSticky : Obligations.SolvedIsSticky := by
  intro i s t hi h
  obtain ⟨hready, hsolved⟩ := (executes_of_exec h).sol_flags hi
  rw [State.solverPhase_eq_solved, State.solverPhase_eq_solved, ne_eq, ne_eq,
    State.solverPhase_eq_uninit, State.solverPhase_eq_uninit, hready]
  exact ⟨hsolved, fun ⟨hr, hs⟩ => ⟨hr, hsolved hs⟩, id⟩

/-- Settles O20, one field at a time. -/
theorem onlyTheNamedInstructionsWrite : Obligations.OnlyTheNamedInstructionsWrite := by
  intro i s t h
  have he := executes_of_exec h
  refine ⟨fun hi => ?_, he.gen_eq, he.rows_eq, fun k hk => ?_, he.fault_eq_or_halts⟩
  · obtain ⟨hmem, hlen, hvalid⟩ := he.payload_eq hi
    exact ⟨fun a => by rw [hmem], hlen, hvalid⟩
  · exact (he.reg_cases k).resolve_right fun hw => hk hw.1

end Sys2Proof.Machine

/-!
SUPPORT. The CSR views bit by bit (10_state.md R40 to R54); then the statements about them: O28, O29.
-/

namespace Sys2Proof.Machine

/-- Bit `i` of a CSR made of at most 32 bits is bit `i` of the list, and 0 past its end. -/
theorem getLsbD_csr_bits {l : List Bool} (hl : l.length ≤ 32) (i : Nat) :
    (BitVec.ofNat 32 (natOfBits l)).getLsbD i = l.getD i false := by
  by_cases hi : i < 32
  · exact getLsbD_ofNat_natOfBits 32 l i hi
  · rw [BitVec.getLsbD_of_ge _ _ (by omega), List.getD_eq_default _ _ (by omega)]

/-- The bits of STATUS are the flags, in the order of 10_state.md R42. -/
theorem State.getLsbD_status (s : State) (i : Nat) :
    s.status.getLsbD i = s.statusBits.getD i false :=
  getLsbD_csr_bits (by simp [State.statusBits]) i

theorem State.genInSys_iff (s : State) :
    s.genInSys = true ↔
      s.gen.ready = true ∧ s.gen.systematic = true ∧ s.gen.sysPos.toNat < s.gen.n.toNat := by
  simp [State.genInSys, and_assoc, BitVec.lt_def]

/-- The bits of SREG_VALID are the valid bits of the registers (10_state.md R47). -/
theorem State.getLsbD_sregValid (s : State) (i : Nat) :
    s.sregValid.getLsbD i = (s.sregs.toList.map SReg.valid).getD i false :=
  getLsbD_csr_bits (by simp) i

theorem State.getLsbD_sregValid_reg (s : State) (k : SIdx) :
    s.sregValid.getLsbD k.val = (s.reg k).valid := by
  simp [State.getLsbD_sregValid, State.reg]

theorem State.getLsbD_sregValid_of_ge (s : State) {i : Nat} (h : 16 ≤ i) :
    s.sregValid.getLsbD i = false := by
  rw [State.getLsbD_sregValid, List.getD_eq_default _ _ (by simpa using h)]

/-- The numbers of the CSR map (10_state.md R40). -/
theorem State.csr_isSome_iff (s : State) (c : Nat) :
    (s.csr c).isSome = true ↔
      c ∈ [0x000, 0x001, 0x002, 0x003, 0x004, 0x005, 0x006, 0x007, 0x008, 0x009, 0x00A, 0x00B, 0x00C,
        0x010, 0x011, 0x012, 0x013, 0x014, 0x020, 0x021, 0x022, 0x023] := by
  unfold State.csr
  split <;> simp_all

/-- The two halves of FAULT_CMD are the whole word (10_state.md R45). -/
theorem word_eq_hi_append_lo (w : Word64) : w = w.extractLsb' 32 32 ++ w.extractLsb' 0 32 := by
  refine BitVec.eq_of_getLsbD_eq fun i hi => ?_
  rw [BitVec.getLsbD_append, BitVec.getLsbD_extractLsb', BitVec.getLsbD_extractLsb']
  by_cases h : i < 32
  · simp [h]
  · simp [h, show i - 32 < 32 by omega, show 32 + (i - 32) = i by omega]

/-- Settles O28. -/
theorem statusBitsAreTheFlags : Obligations.StatusBitsAreTheFlags := by
  refine ⟨rfl, fun s => ⟨rfl, s.getLsbD_status 0, s.getLsbD_status 1, s.getLsbD_status 2,
    s.getLsbD_status 3, s.getLsbD_status 4, s.getLsbD_status 5, s.getLsbD_status 6, ?_, fun i hi => ?_⟩⟩
  · rw [s.getLsbD_status 7]
    exact s.genInSys_iff
  · rw [s.getLsbD_status, List.getD_eq_default _ _ (by simpa [State.statusBits] using hi)]

/-- Settles O29: a number that is a field reads it by definition; what is left is the valid bits, the
narrow fields, the halves of the command word, and which numbers are mapped. -/
theorem csrMapIsTheSpecs : Obligations.CsrMapIsTheSpecs := by
  intro s
  have narrow (w : BitVec 16) : (w.setWidth 32).toNat = w.toNat :=
    BitVec.toNat_setWidth_of_le (by decide)
  have cause : (s.fault.cause.setWidth 32).toNat = s.fault.cause.toNat :=
    BitVec.toNat_setWidth_of_le (by decide)
  exact ⟨⟨_, rfl, s.getLsbD_sregValid_reg, fun _ => s.getLsbD_sregValid_of_ge⟩, rfl, rfl, rfl, rfl, rfl,
    rfl, rfl, ⟨_, rfl, cause⟩, rfl, ⟨_, _, rfl, rfl, word_eq_hi_append_lo _⟩, rfl, rfl,
    ⟨_, rfl, narrow _⟩, rfl, rfl, rfl, ⟨_, rfl, narrow _⟩, rfl, rfl, rfl, s.csr_isSome_iff⟩

end Sys2Proof.Machine

/-!
SUPPORT. What the core's turn finds (10_state.md R60, R62), and what every move leaves unchanged; then
the statements about single moves: O5, O60, O16, O18.
-/

namespace Sys2Proof.Machine

/-! ### What the core finds -/

/-- A free core is IDLE or HALTED. -/
theorem State.free_iff (s : State) : s.free = true ↔ s.core = .idle ∨ s.core = .halted := by
  unfold State.free
  cases s.core <;> simp

/-- A ready command is fetched from its queue. -/
theorem fetch_ready {s : State} {p : Nat} {w : Word64} (hw : s.readyCommand p = some w) :
    fetch p s = fetchCommand w (s.take p w) := by
  obtain ⟨_, hfree, _⟩ := State.readyCommand_eq_some.1 hw
  obtain hc | hc := s.free_iff.1 hfree <;> simp [fetch, hc, hw]

theorem fetch_planning {s : State} (hc : s.core = .exec .planning) (p : Nat) :
    fetch p s = fetchToken s := by
  simp [fetch, hc]

theorem fetch_drawing {s : State} (hc : s.core = .exec .drawing) (p : Nat) :
    fetch p s = fetchCommand s.cmdWord s := by
  simp [fetch, hc]

theorem fetchCommand_command {w : Word64} {i : Instr} (h : decodeCommand w = .command i) (s : State) :
    fetchCommand w s = .run i s := by
  simp [fetchCommand, h]

theorem fetchToken_token {s : State} {w : Word64} {i : Instr} (hw : s.planIn = some w)
    (h : decodePlan w = some i) : fetchToken s = .run i { s with planIn := none } := by
  simp [fetchToken, hw, h]

theorem fetchCommand_run {w : Word64} {s u : State} {i : Instr} (h : fetchCommand w s = .run i u) :
    decodeCommand w = .command i ∧ u = s := by
  unfold fetchCommand at h
  split at h <;> cases h
  exact ⟨‹_›, rfl⟩

theorem fetchCommand_answered {w : Word64} {s t : State} (h : fetchCommand w s = .answered t) :
    (∀ i, decodeCommand w ≠ .command i) ∧ ∃ c, t = s.rejectWord c := by
  unfold fetchCommand at h
  split at h <;> cases h
  · exact ⟨fun i hi => by simp_all, _, rfl⟩
  · exact ⟨fun i hi => by simp_all, _, rfl⟩

/-- An instruction is found in one of three places (10_state.md R60, R62). -/
theorem fetch_run {p : Nat} {s u : State} {i : Instr} (h : fetch p s = .run i u) :
    (∃ w, s.readyCommand p = some w ∧ decodeCommand w = .command i ∧ u = s.take p w) ∨
    (s.core = .exec .drawing ∧ decodeCommand s.cmdWord = .command i ∧ u = s) ∨
    (s.core = .exec .planning ∧ ∃ w, s.planIn = some w ∧ decodePlan w = some i ∧
      u = { s with planIn := none }) := by
  unfold fetch at h
  split at h
  · unfold fetchToken at h
    split at h
    · cases h
    · split at h <;> cases h
      exact .inr (.inr ⟨‹_›, _, ‹_›, ‹_›, rfl⟩)
  · obtain ⟨hi, rfl⟩ := fetchCommand_run h
    exact .inr (.inl ⟨‹_›, hi, rfl⟩)
  all_goals
    split at h
    · cases h
    · obtain ⟨hi, rfl⟩ := fetchCommand_run h
      exact .inl ⟨_, ‹_›, hi, rfl⟩

/-- A word that is no instruction is found in one of the same places, and refused there. -/
theorem fetch_answered {p : Nat} {s t : State} (h : fetch p s = .answered t) :
    (∃ w c, s.readyCommand p = some w ∧ (∀ i, decodeCommand w ≠ .command i) ∧
      t = (s.take p w).rejectWord c) ∨
    (s.core = .exec .drawing ∧ (∀ i, decodeCommand s.cmdWord ≠ .command i) ∧
      ∃ c, t = s.rejectWord c) ∨
    (s.core = .exec .planning ∧ ∃ u, t = ({ s with planIn := none } : State).raise u) := by
  unfold fetch at h
  split at h
  · unfold fetchToken at h
    split at h
    · cases h
    · split at h <;> cases h
      exact .inr (.inr ⟨‹_›, _, rfl⟩)
  · obtain ⟨hi, c, rfl⟩ := fetchCommand_answered h
    exact .inr (.inl ⟨‹_›, hi, c, rfl⟩)
  all_goals
    split at h
    · cases h
    · obtain ⟨hi, c, rfl⟩ := fetchCommand_answered h
      exact .inl ⟨_, c, ‹_›, hi, rfl⟩

/-! ### The core's turn -/

theorem coreTurn_of_run {p : Nat} {s u : State} {i : Instr} (h : fetch p s = .run i u) :
    coreTurn p s = exec i u := by
  simp [coreTurn, h]

theorem step_of_nextMove {s u : State} {e : Event} (h : s.nextMove = (e, u)) : step s = move e u := by
  simp [step, h]

/-- The next move is taken from the moves to come, and nothing else of the state changes. -/
theorem State.nextMove_state (s : State) :
    s.nextMove.2 = { s with agenda := s.nextMove.2.agenda, envTick := s.nextMove.2.envTick } := by
  unfold State.nextMove
  split <;> rfl

/-- A word that is refused changes no register and no parameter. -/
theorem State.rejectWord_unchanged (s : State) (c : FaultCode) :
    (s.rejectWord c).params = s.params ∧ (s.rejectWord c).sregs = s.sregs := by
  unfold State.rejectWord
  split <;> exact ⟨rfl, rfl⟩

/-- A fetch changes no register and no parameter. -/
theorem fetch_unchanged {p : Nat} {s u : State}
    (h : (∃ i, fetch p s = .run i u) ∨ fetch p s = .answered u) :
    u.params = s.params ∧ u.sregs = s.sregs := by
  obtain ⟨i, h⟩ | h := h
  · obtain ⟨w, _, _, rfl⟩ | ⟨_, _, rfl⟩ | ⟨_, w, _, _, rfl⟩ := fetch_run h <;> exact ⟨rfl, rfl⟩
  · obtain ⟨w, c, _, _, rfl⟩ | ⟨_, _, c, rfl⟩ | ⟨_, t, rfl⟩ := fetch_answered h
    · exact State.rejectWord_unchanged _ c
    · exact State.rejectWord_unchanged _ c
    · exact ⟨rfl, rfl⟩

/-- What holds between a state and the next one for a turn of the core that keeps the registers, and for
every instruction, holds for every turn of the core. -/
theorem coreTurn_related {R : State → State → Prop}
    (hkeep : ∀ s t : State, t.params = s.params → t.sregs = s.sregs → R s t)
    (hexec : ∀ (s u t : State) (i : Instr), u.params = s.params → u.sregs = s.sregs →
      Executes u i t → R s t)
    {p : Nat} {s t : State} (h : coreTurn p s = .next t) : R s t := by
  obtain ⟨_, rfl⟩ | ⟨i, u, hf, he⟩ | hf := coreTurn_next h
  · exact hkeep t t rfl rfl
  · obtain ⟨hp, hr⟩ := fetch_unchanged (.inl ⟨i, hf⟩)
    exact hexec s u t i hp hr (executes_of_exec he)
  · obtain ⟨hp, hr⟩ := fetch_unchanged (.inr hf)
    exact hkeep s t hp hr

/-! ### The other agents -/

/-- A push of either kind, and its waiting, changes the queues of its own port only. -/
theorem State.pushCmd_eq (s : State) (p : Nat) (w : Word64) :
    s.pushCmd p w = if p < s.params.nports ∧ (s.port p).cmdq.length < s.params.cmdDepth then
      s.setPort p { s.port p with cmdq := (s.port p).cmdq ++ [w] } else s := by
  simp [State.pushCmd, State.hasPort]

theorem State.pushByte_eq (s : State) (p : Nat) (b : Byte) :
    s.pushByte p b = if p < s.params.nports ∧ (s.port p).dinq.length < s.params.dinDepth then
      s.setPort p { s.port p with dinq := (s.port p).dinq ++ [b] } else s := by
  simp [State.pushByte, State.hasPort]

/-- The random source is asked for a byte exactly while a draw waits for one. -/
theorem State.rngWanted_pos (s : State) :
    0 < s.rngWanted ↔ s.core = .exec .drawing ∧ s.rngIn.length < s.drawBytes := by
  unfold State.rngWanted
  split <;> simp_all

theorem State.supplyByte_eq (s : State) (b : Byte) :
    s.supplyByte b = if s.core = .exec .drawing ∧ s.rngIn.length < s.drawBytes then
      { s with rngIn := s.rngIn ++ [b] } else s := by
  simp only [State.supplyByte, s.rngWanted_pos]

/-- A move that is not the core's and not reset changes no register and no parameter. -/
theorem move_unchanged {e : Event} {s t : State} (hcore : ∀ p, e ≠ .core p) (hrst : e ≠ .rst)
    (h : move e s = .next t) : t.params = s.params ∧ t.sregs = s.sregs := by
  cases e with
  | core p => exact absurd rfl (hcore p)
  | rst => exact absurd rfl hrst
  | pushCmd p w => cases h; rw [State.pushCmd_eq]; split <;> exact ⟨rfl, rfl⟩
  | pushByte p b => cases h; rw [State.pushByte_eq]; split <;> exact ⟨rfl, rfl⟩
  | popByte p => cases h; exact ⟨rfl, rfl⟩
  | popResp p => cases h; exact ⟨rfl, rfl⟩
  | rng b => cases h; rw [State.supplyByte_eq]; split <;> exact ⟨rfl, rfl⟩
  | plan w => cases h; unfold State.supplyToken; split <;> exact ⟨rfl, rfl⟩

/-! ### Parameters and valid registers over every move -/

theorem move_params {e : Event} {s t : State} (h : move e s = .next t) : t.params = s.params := by
  cases e with
  | core p =>
    exact coreTurn_related (R := fun s t => t.params = s.params) (fun _ _ hp _ => hp)
      (fun _ _ _ _ hp _ he => he.params_eq.trans hp) h
  | rst => cases h; rfl
  | _ => exact (move_unchanged (by simp) (by simp) h).1

theorem move_reg_valid {e : Event} {s t : State} (he : e ≠ .rst) (h : move e s = .next t) {k : SIdx}
    (hk : (s.reg k).valid = true) : (t.reg k).valid = true := by
  have keep {u v : State} (hr : v.sregs = u.sregs) : v.reg k = u.reg k := by simp [State.reg, hr]
  cases e with
  | core p =>
    exact coreTurn_related (R := fun s t => (s.reg k).valid = true → (t.reg k).valid = true)
      (fun _ _ _ hr hk => by rwa [keep hr]) (fun _ _ _ _ _ hr he hk => he.reg_valid (by rwa [keep hr]))
      h hk
  | rst => exact absurd rfl he
  | _ => rwa [keep (move_unchanged (by simp) (by simp) h).2]

/-! ### The statements -/

/-- Settles O5: each of the three places is looked up in `fetch`. -/
theorem stepRunsTheFetchedInstruction : Obligations.StepRunsTheFetchedInstruction := by
  refine ⟨fun s u p w i hm hw hi => ⟨u.take p w, ?_, rfl, ?_, ?_, fun q hq => ?_⟩,
    fun s u p w i hm hc hw hi => ?_, fun s u p i hm hc hi => ?_⟩
  · rw [step_of_nextMove hm]
    exact coreTurn_of_run ((fetch_ready hw).trans (fetchCommand_command hi _))
  · obtain ⟨⟨rest, hq⟩, _⟩ := State.readyCommand_eq_some.1 hw
    simp [hq]
  · simp
  · rw [State.port_take, if_neg hq.symm]
  · rw [step_of_nextMove hm]
    exact coreTurn_of_run ((fetch_planning hc p).trans (fetchToken_token hw hi))
  · rw [step_of_nextMove hm]
    exact coreTurn_of_run ((fetch_drawing hc p).trans (fetchCommand_command hi _))

/-- Replacing the queues of a port, under a condition, is all that a push does. -/
theorem State.setPort_or_wait (u : State) (p : Nat) (q : Port) (c : Prop) [Decidable c] :
    (if c then u.setPort p q else u) = { u with ports := (if c then u.setPort p q else u).ports } ∧
    (∀ r, r ≠ p → (if c then u.setPort p q else u).port r = u.port r) ∧
    (if c then u.setPort p q else u).port p = if c then q else u.port p := by
  split
  · exact ⟨rfl, fun r hr => by rw [State.port_setPort, if_neg hr.symm], by simp⟩
  · exact ⟨rfl, fun _ _ => rfl, rfl⟩

/-- Settles O60, one agent at a time. -/
theorem agentsMoveOnlyTheirOwnData : Obligations.AgentsMoveOnlyTheirOwnData := by
  refine fun s u p w b => ⟨fun hm => ⟨u.pushCmd p w, step_of_nextMove hm, ?_⟩,
    fun hm => ⟨u.pushByte p b, step_of_nextMove hm, ?_⟩,
    fun hm => ⟨u.popByte p, step_of_nextMove hm, rfl, fun q hq => ?_, ?_⟩,
    fun hm => ⟨u.popResp p, step_of_nextMove hm, rfl, fun q hq => ?_, ?_⟩, fun hm => ?_, fun hm => ?_⟩
  · rw [State.pushCmd_eq]; exact u.setPort_or_wait p _ _
  · rw [State.pushByte_eq]; exact u.setPort_or_wait p _ _
  · rw [State.popByte, State.port_setPort, if_neg hq.symm]
  · simp [State.popByte]
  · rw [State.popResp, State.port_setPort, if_neg hq.symm]
  · simp [State.popResp]
  · rw [step_of_nextMove hm, move, State.supplyByte_eq]; rfl
  · exact step_of_nextMove hm

/-- Settles O16. -/
theorem parametersNeverChange : Obligations.ParametersNeverChange := by
  intro s t h
  have hs : s.nextMove.2.params = s.params := by rw [State.nextMove_state]
  have hp : t.params = s.params := (move_params h).trans hs
  exact ⟨hp, hp ▸ rfl, hp ▸ rfl, hp ▸ rfl, hp ▸ rfl, hp ▸ rfl⟩

/-- Settles O18. -/
theorem writtenRegistersStayValid : Obligations.WrittenRegistersStayValid := by
  intro s u t e k hm he h hk
  rw [step_of_nextMove hm] at h
  have hu : u = { s with agenda := u.agenda, envTick := u.envTick } := by
    have := s.nextMove_state
    rwa [hm] at this
  refine move_reg_valid he h (k := k) ?_
  rw [hu]
  exact hk

end Sys2Proof.Machine

/-!
SUPPORT. The algebra of slices: XOR of byte buffers of one length, the combination of segments a
coefficient vector selects, and which slices the instructions make from which; then O48, that the
slice invariant of 10_state.md R61 is kept.
-/

namespace Sys2Proof.Machine

/-! ### XOR of byte buffers of one length -/

theorem xorBytes_cons (x y : Byte) (a b : List Byte) :
    xorBytes (x :: a) (y :: b) = (x ^^^ y) :: xorBytes a b := rfl

theorem xorBytes_comm (a b : List Byte) : xorBytes a b = xorBytes b a :=
  List.zipWith_comm_of_comm BitVec.xor_comm

theorem xorBytes_assoc (a b c : List Byte) :
    xorBytes (xorBytes a b) c = xorBytes a (xorBytes b c) := by
  induction a generalizing b c with
  | nil => rfl
  | cons x a ih =>
    cases b with
    | nil => rfl
    | cons y b =>
      cases c with
      | nil => rfl
      | cons z c => simp only [xorBytes_cons, BitVec.xor_assoc, ih]

theorem xorBytes_self (a : List Byte) : xorBytes a a = List.replicate a.length 0 := by
  induction a with
  | nil => rfl
  | cons x a ih => rw [xorBytes_cons, ih, BitVec.xor_self]; rfl

theorem xorBytes_zero {a : List Byte} {sz : Nat} (h : a.length = sz) :
    xorBytes a (List.replicate sz 0) = a := by
  induction a generalizing sz with
  | nil => rfl
  | cons x a ih =>
    subst h
    rw [List.length_cons, List.replicate_succ, xorBytes_cons, ih rfl]
    simp

/-! ### The combination of segments -/

@[simp] theorem length_segmentOf (payload : List Byte) (sz i : Nat) :
    (segmentOf payload sz i).length = sz := by simp [segmentOf]

/-- `combine` step by step: the segments below `m` that `c` takes. -/
def combineBelow (payload : List Byte) (sz : Nat) (c : Nat → Bool) : Nat → List Byte
  | 0 => List.replicate sz 0
  | m + 1 =>
    if c m then xorBytes (combineBelow payload sz c m) (segmentOf payload sz m)
    else combineBelow payload sz c m

section Combine

variable (payload : List Byte) (sz : Nat)

theorem combine_eq_combineBelow (coef : List Bool) :
    combine payload sz coef = combineBelow payload sz (coef.getD · false) coef.length := by
  rw [combine, selected, List.foldl_filter]
  generalize coef.length = m
  induction m with
  | zero => rfl
  | succ m ih => rw [List.range_succ, List.foldl_append, ih]; rfl

@[simp] theorem length_combineBelow (c : Nat → Bool) (m : Nat) :
    (combineBelow payload sz c m).length = sz := by
  induction m with
  | zero => simp [combineBelow]
  | succ m ih => rw [combineBelow]; split <;> simp [ih]

theorem combineBelow_congr {c d : Nat → Bool} {m : Nat} (h : ∀ i < m, c i = d i) :
    combineBelow payload sz c m = combineBelow payload sz d m := by
  induction m with
  | zero => rfl
  | succ m ih =>
    rw [combineBelow, combineBelow, h m (Nat.lt_succ_self m), ih fun i hi => h i (by omega)]

/-- A segment taken twice cancels. -/
theorem combineBelow_xor (c d : Nat → Bool) (m : Nat) :
    combineBelow payload sz (fun i => Bool.xor (c i) (d i)) m =
      xorBytes (combineBelow payload sz c m) (combineBelow payload sz d m) := by
  induction m with
  | zero => exact (xorBytes_zero (List.length_replicate ..)).symm
  | succ m ih =>
    have hd := length_combineBelow payload sz d m
    generalize hA : combineBelow payload sz c m = A at ih
    generalize hB : combineBelow payload sz d m = B at ih hd
    simp only [combineBelow, ih, hA, hB]
    generalize hS : segmentOf payload sz m = S
    have hSS : xorBytes S S = List.replicate sz 0 := by rw [xorBytes_self, ← hS, length_segmentOf]
    cases c m <;> cases d m
    · rfl
    · exact xorBytes_assoc A B S
    · show xorBytes (xorBytes A B) S = xorBytes (xorBytes A S) B
      rw [xorBytes_assoc, xorBytes_comm B, ← xorBytes_assoc]
    · show xorBytes A B = xorBytes (xorBytes A S) (xorBytes B S)
      rw [xorBytes_comm B S, xorBytes_assoc A S, ← xorBytes_assoc S S, hSS,
        xorBytes_comm (List.replicate sz 0) B, xorBytes_zero hd]

/-- A unit vector selects its segment alone. -/
theorem combineBelow_single (i m : Nat) :
    combineBelow payload sz (· == i) m =
      if i < m then segmentOf payload sz i else List.replicate sz 0 := by
  induction m with
  | zero => simp [combineBelow]
  | succ m ih =>
    rw [combineBelow, ih]
    rcases Nat.lt_trichotomy i m with h | rfl | h
    · rw [if_neg (by simp; omega), if_pos h, if_pos (by omega)]
    · rw [if_pos (by simp), if_neg (by omega), if_pos (by omega), xorBytes_comm,
        xorBytes_zero (length_segmentOf ..)]
    · rw [if_neg (by simp; omega), if_neg (by omega), if_neg (by omega)]

theorem combine_unitVector {n i : Nat} (h : i < n) :
    combine payload sz (unitVector n i) = segmentOf payload sz i := by
  rw [combine_eq_combineBelow, length_unitVector,
    combineBelow_congr payload sz (d := (· == i)) fun j hj => getD_unitVector n i j hj,
    combineBelow_single, if_pos h]

theorem getD_xorBits {a b : List Bool} {i : Nat} (h : a.length = b.length) :
    (xorBits a b).getD i false = Bool.xor (a.getD i false) (b.getD i false) := by
  simp only [List.getD_eq_getElem?_getD, xorBits, List.getElem?_zipWith]
  by_cases hi : i < a.length
  · simp [hi, h ▸ hi]
  · simp [Nat.not_lt.1 hi, h ▸ Nat.not_lt.1 hi]

/-- Combination is linear in the coefficients. -/
theorem combine_xorBits {a b : List Bool} (h : a.length = b.length) :
    combine payload sz (xorBits a b) = xorBytes (combine payload sz a) (combine payload sz b) := by
  rw [combine_eq_combineBelow, combine_eq_combineBelow, combine_eq_combineBelow, length_xorBits, ← h,
    Nat.min_self, ← combineBelow_xor]
  exact combineBelow_congr payload sz fun i _ => getD_xorBits h

/-! ### Valid slices -/

variable {payload sz}

/-- XOR of valid slices is valid (10_state.md R61). -/
theorem Slice.ValidFor.xor {x y : Slice} (hx : x.ValidFor payload sz) (hy : y.ValidFor payload sz) :
    (x.xor y).ValidFor payload sz := by
  obtain ⟨hxn, hxs, hxd⟩ := hx
  obtain ⟨hyn, hys, hyd⟩ := hy
  refine ⟨by rw [Slice.n_xor, hxn, hyn, Nat.min_self], by rw [Slice.s_xor, hxs, hys, Nat.min_self], ?_⟩
  rw [show (x.xor y).coef = xorBits x.coef y.coef from rfl, combine_xorBits payload sz (hxn.trans hyn.symm),
    ← hxd, ← hyd]
  rfl

/-- A systematic slice is valid (42_split_mix.md R200, 10_state.md R61). -/
theorem Slice.validFor_systematic {i : Nat} (hi : i < ceilDiv payload.length sz) :
    (⟨unitVector (ceilDiv payload.length sz) i, segmentOf payload sz i⟩ : Slice).ValidFor payload sz :=
  ⟨length_unitVector _ i, length_segmentOf payload sz i, (combine_unitVector payload sz hi).symm⟩

end Combine

/-! ### The systematic slices of the generator -/

@[simp] theorem State.length_payload (s : State) : s.payload.length = s.payloadLen.toNat := by
  simp [State.payload]

theorem State.getD_payload (s : State) {a : Nat} (h : a < s.payloadLen.toNat) :
    s.payload.getD a 0 = (Memory.read s.pmem a).getD 0 := by
  simp [State.payload, h]

/-- When the payload is there, a segment is read whole: no byte past the payload is read. -/
theorem State.seg_eq {s : State} (h : s.PayloadThere) (i : Nat) :
    s.seg i = some (segmentOf s.payload s.gen.s.toNat i) := by
  rw [State.seg, allSome_eq_some, segmentOf, List.map_map]
  refine List.map_congr_left fun k _ => ?_
  rw [Function.comp_apply, State.segByte]
  split
  · next hk =>
    rw [s.getD_payload hk]
    obtain ⟨b, hb⟩ := Option.isSome_iff_exists.1 (h _ hk)
    rw [hb]; rfl
  · next hk => rw [List.getD_eq_default _ _ (by simpa using hk)]

theorem State.sys_eq {s : State} (h : s.PayloadThere) (i : Nat) :
    s.sys i = some ⟨unitVector s.gen.n.toNat i, segmentOf s.payload s.gen.s.toNat i⟩ := by
  rw [State.sys, State.seg_eq h]; rfl

/-! ### Which slices the instructions make -/

section Made

variable {P : Slice → Prop}

/-- What XOR keeps, a mix keeps. -/
theorem mixSlices_of_xor (hxor : ∀ x y, P x → P y → P (x.xor y)) {l : List Slice} {z : Slice}
    (hl : ∀ x ∈ l, P x) (hz : mixSlices l = some z) : P z := by
  cases l with
  | nil => cases hz
  | cons x xs =>
    cases hz
    exact List.foldlRecOn xs Slice.xor (hl x (by simp)) fun acc ha y hy => hxor acc y ha (hl y (by simp [hy]))

/-- The slices of a drawn selection are systematic slices of the generator. -/
theorem State.mixSel_of_xor {s : State} (hxor : ∀ x y, P x → P y → P (x.xor y)) {sel : List Bool}
    (hsys : ∀ j < sel.length, ∀ x, s.sys j = some x → P x) {z : Slice}
    (hz : s.mixSel sel = some z) : P z := by
  obtain ⟨xs, hxs, hmix⟩ := Option.bind_eq_some_iff.1 hz
  rw [allSome_eq_some] at hxs
  refine mixSlices_of_xor hxor (fun x hx => ?_) hmix
  obtain ⟨j, hj, hjx⟩ := List.mem_map.1 (hxs ▸ List.mem_map_of_mem (f := some) hx)
  exact hsys j ((mem_selected sel j).1 hj).1 x hjx

/-- A property of every written register's slice, after a write. -/
theorem State.writeReg_regs {s : State} (hs : ∀ k, (s.reg k).valid = true → P (s.reg k).slice)
    (rd : SIdx) {x : Slice} (hx : P x) :
    ∀ k, ((s.writeReg rd x).reg k).valid = true → P ((s.writeReg rd x).reg k).slice := by
  intro k
  rw [State.reg_writeReg]
  split
  · exact fun _ => hx
  · exact hs k

theorem State.maskSlices_regs {s : State} {mask : BitVec 16} (hk : checkMix mask s = none)
    (hs : ∀ k ∈ maskRegs mask, (s.reg k).valid = true → P (s.reg k).slice) :
    ∀ x ∈ s.maskSlices mask, P x := by
  intro x hx
  obtain ⟨k, hmem, rfl⟩ := List.mem_map.1 hx
  exact hs k hmem (valid_of_checkMix_eq_none hk k hmem)

/-- The slices of registers are made by XOR from slices of registers and systematic slices, but for
what SLC.CREATE takes from the host: a property of those is one of every written register. -/
theorem Executes.regs_of_xor {s t : State} {i : Instr} (h : Executes s i t)
    (hxor : ∀ x y, P x → P y → P (x.xor y))
    (hsys : s.gen.ready = true → ∀ j < s.gen.n.toNat, ∀ x, s.sys j = some x → P x)
    (hcreate : ∀ rd sz n, i = .slcCreate rd sz n → check i s = none →
      ∀ img : List Byte, img.length = imageLength n sz → P (sliceOfImage n sz img))
    (hdraw : s.core = .exec .drawing → s.gen.ready = true)
    (hs : ∀ k, (s.reg k).valid = true → P (s.reg k).slice) :
    ∀ k, (t.reg k).valid = true → P (t.reg k).slice := by
  cases h with
  | @slcCreate rd sz n _ hk hin =>
    exact State.writeReg_regs (s := s.dinDrop _) hs rd
      (hcreate rd sz n rfl hk _ (List.length_take_of_le hin))
  | slcClone _ hk => exact State.writeReg_regs hs _ (hs _ (checkSlcClone_eq_none.1 hk))
  | slcXor _ hk =>
    obtain ⟨hrd, hrs, _⟩ := checkSlcXor_eq_none.1 hk
    exact State.writeReg_regs hs _ (hxor _ _ (hs _ hrd) (hs _ hrs))
  | split _ hk hx =>
    obtain ⟨hready, hj⟩ := checkSplit_eq_none.1 hk
    exact State.writeReg_regs hs _ (hsys hready _ hj _ hx)
  | mix _ hk hx =>
    exact State.writeReg_regs hs _
      (mixSlices_of_xor hxor (State.maskSlices_regs hk fun k _ => hs k) hx)
  | genSystematic _ hin hx =>
    obtain ⟨hready, _, hlt⟩ := s.genInSys_iff.1 hin
    exact State.writeReg_regs (s := s.countSystematic) hs _ (hsys hready _ hlt _ hx)
  | genEmit hd _ hx =>
    have hready : s.gen.ready = true := by
      obtain hc | ⟨_, hready, _⟩ := hd
      · exact hdraw hc
      · exact hready
    refine State.writeReg_regs (s := s.afterDraw) hs _
      (State.mixSel_of_xor hxor (fun j hj => hsys hready j ?_) hx)
    rwa [State.drawSel, length_packBits] at hj
  | _ => exact hs

end Made

/-! ### The statement -/

/-- CLONE, XOR and MIX that run make a valid slice of valid slices, whatever the payload. -/
theorem Executes.combining_validFor {s t : State} {i : Instr} {payload : List Byte} {sz : Nat}
    (h : Executes s i t)
    (hi : (∃ rd rs, i = .slcClone rd rs ∨ i = .slcXor rd rs) ∨ (∃ rd mask, i = .mix rd mask))
    (hs : ∀ k ∈ sources i, (s.reg k).valid = true → (s.reg k).slice.ValidFor payload sz)
    (ht : t.core ≠ .halted) : ∀ k ∈ destinations i, (t.reg k).slice.ValidFor payload sz := by
  have written {rd : SIdx} {x : Slice} (hx : x.ValidFor payload sz) :
      ∀ k ∈ [rd], ((s.writeReg rd x).reg k).slice.ValidFor payload sz := by
    intro k hk
    rw [State.reg_writeReg, if_pos (List.mem_singleton.1 hk).symm]
    exact hx
  cases h with
  | halted hc => exact absurd hc ht
  | trap => exact absurd rfl ht
  | @slcClone rd rs _ hk => exact written (hs rs (by simp [sources]) (checkSlcClone_eq_none.1 hk))
  | @slcXor rd rs _ hk =>
    obtain ⟨hrd, hrs, _⟩ := checkSlcXor_eq_none.1 hk
    exact written ((hs rd (by simp [sources]) hrd).xor (hs rs (by simp [sources]) hrs))
  | mix _ hk hx =>
    exact written (mixSlices_of_xor (fun _ _ => Slice.ValidFor.xor) (State.maskSlices_regs hk hs) hx)
  | _ => simp at hi

/-- Settles O48: both clauses from the fact that XOR and systematic slices are valid. -/
theorem slicesStayValid : Obligations.SlicesStayValid := by
  refine ⟨fun payload sz i s t hi hs h ht => (executes_of_exec h).combining_validFor hi hs ht,
    fun i s t hinv hready hs hi h => ?_⟩
  obtain ⟨_, _, hthere, _, _⟩ := hinv.payload
  obtain ⟨_, _, _, hgen⟩ := hinv.gen
  obtain ⟨_, _, hn⟩ := hgen hready
  refine (executes_of_exec h).regs_of_xor (fun _ _ => Slice.ValidFor.xor) (fun _ j hj x hx => ?_)
    (fun rd sz n he => absurd he (hi rd sz n)) (fun _ => hready) hs
  rw [State.sys_eq hthere, Option.some.injEq] at hx
  rw [hn, ← State.length_payload] at hx hj
  exact hx ▸ Slice.validFor_systematic hj

end Sys2Proof.Machine

/-!
SUPPORT. The invariant: one rule for each operation on the state, saying what it needs to keep
`State.Inv`; then that what the core finds meets these needs, because a command is started only when
it is ready (20_memory.md R88); then O13.
-/

namespace Sys2Proof.Machine

/-! ### Queues under the invariant -/

/-- The queues of a port respect their capacities (10_state.md R58). -/
structure Port.Fits (q : Port) (p : Params) : Prop where
  cmdq : q.cmdq.length ≤ p.cmdDepth
  dinq : q.dinq.length ≤ p.dinDepth
  doutq : q.doutq.length ≤ p.doutDepth
  respq : q.respq.length ≤ p.respDepth

theorem mem_of_entryAt {α : Type} {l : List (Nat × α)} {a : Nat} {v : α} (h : entryAt l a = some v) :
    (a, v) ∈ l := by
  induction l with
  | nil => cases h
  | cons e l ih =>
    obtain ⟨k, u⟩ := e
    rw [entryAt_cons] at h
    split at h
    · next hk => cases h; simp [hk]
    · exact List.mem_cons_of_mem _ (ih h)

/-- A port is empty, or it is a port of the block and its queues fit. -/
theorem State.QueuesOk.port_cases {s : State} (h : s.QueuesOk) (p : Nat) :
    s.port p = Port.empty ∨ p < s.params.nports ∧ (s.port p).Fits s.params := by
  unfold State.port portAt
  cases he : entryAt s.ports p with
  | none => exact .inl rfl
  | some q =>
    obtain ⟨_, hports⟩ := h
    obtain ⟨hp, hcmd, hdin, hdout, hresp⟩ := hports _ (mem_of_entryAt he)
    exact .inr ⟨hp, hcmd, hdin, hdout, hresp⟩

theorem State.QueuesOk.fits {s : State} (h : s.QueuesOk) (p : Nat) : (s.port p).Fits s.params := by
  obtain he | ⟨_, hf⟩ := h.port_cases p
  · rw [he]; constructor <;> exact Nat.zero_le _
  · exact hf

/-- A port that holds anything is a port of the block (60_exceptions.md R314). -/
theorem State.QueuesOk.port_lt {s : State} (h : s.QueuesOk) {p : Nat} (hne : s.port p ≠ Port.empty) :
    p < s.params.nports :=
  ((h.port_cases p).resolve_left hne).1

theorem State.QueuesOk.setPort {s : State} (h : s.QueuesOk) {p : Nat} {q : Port}
    (hp : q ≠ Port.empty → p < s.params.nports) (hq : q.Fits s.params) : (s.setPort p q).QueuesOk := by
  obtain ⟨hwf, hports⟩ := h
  refine ⟨PortMap.wf_setPortAt _ _ _ hwf, fun e he => ?_⟩
  rw [State.setPort_ports, setPortAt] at he
  split at he
  · exact hports e (List.mem_of_mem_filter he)
  · next hne =>
    obtain rfl | he := mem_setEntry he
    · exact ⟨hp hne, hq.cmdq, hq.dinq, hq.doutq, hq.respq⟩
    · exact hports e he

section Rules

variable {s : State}

/-! ### The invariant's clauses, by name -/

/-- A slice size of the block fits 16 bits (00_scope.md R7). -/
theorem State.Inv.smax_le (h : s.Inv) : s.params.smax ≤ 2 ^ 16 - 1 := by
  obtain ⟨_, ⟨_, hsmax⟩, _⟩ := h.params
  exact hsmax

/-- A segment count of the block fits 32 bits (00_scope.md R7). -/
theorem State.Inv.nmax_le (h : s.Inv) : s.params.nmax ≤ 2 ^ 32 - 1 := by
  obtain ⟨⟨_, hnmax⟩, _⟩ := h.params
  exact hnmax

/-- A payload length of the block fits 32 bits (00_scope.md R7). -/
theorem State.Inv.pmax_le (h : s.Inv) : s.params.pmax ≤ 2 ^ 32 - 1 := by
  obtain ⟨_, _, ⟨_, hpmax⟩, _⟩ := h.params
  exact hpmax

theorem State.Inv.active_iff (h : s.Inv) : s.plan.active = true ↔ s.core = .exec .planning :=
  h.session.1

theorem State.Inv.token_in_session (h : s.Inv) : s.planIn ≠ none → s.core = .exec .planning :=
  h.session.2.1

/-- What an open session can rely on. -/
theorem State.Inv.planning (h : s.Inv) (hc : s.core = .exec .planning) :
    s.sol.ready = true ∧ s.sol.n.toNat ≤ s.solRows ∧ decodeCommand s.cmdWord = .command .solTry ∧
      s.cmdPort < s.params.nports ∧ s.here.respq.length + 1 ≤ s.params.respDepth ∧
      s.here.doutq.length + s.sol.tl.toNat ≤ s.params.doutDepth :=
  h.session.2.2 hc

/-- What a GEN.NEXT in a hold on its draw can rely on. -/
theorem State.Inv.drawing (h : s.Inv) (hc : s.core = .exec .drawing) :
    s.gen.ready = true ∧ s.genInSys = false ∧ s.cmdPort < s.params.nports ∧
      (∃ rd, decodeCommand s.cmdWord = .command (.genNext rd)) ∧ s.rngIn.length ≤ s.drawBytes :=
  h.draw.1 hc

theorem State.Inv.rngIn_eq_nil (h : s.Inv) : s.core ≠ .exec .drawing → s.rngIn = [] := h.draw.2

/-! ### The rules: what each operation needs to keep the invariant -/

/-- The queues of a port replaced: a session keeps the room its end needs. -/
theorem State.Inv.setPort (h : s.Inv) {p : Nat} {q : Port}
    (hp : q ≠ Port.empty → p < s.params.nports) (hq : q.Fits s.params)
    (hroom : s.core = .exec .planning → q.respq.length ≤ (s.port p).respq.length ∧
      q.doutq.length ≤ (s.port p).doutq.length) : (s.setPort p q).Inv := by
  refine { h with
    queues := h.queues.setPort hp hq
    session := ⟨h.active_iff, h.token_in_session, fun hc => ?_⟩ }
  obtain ⟨hready, hrows, hword, hport, hresp, hdout⟩ := h.planning hc
  obtain ⟨hr, hd⟩ := hroom hc
  refine ⟨hready, hrows, hword, hport, ?_⟩
  rw [State.here, State.setPort_cmdPort, State.port_setPort]
  split
  · next hpc =>
    subst hpc
    exact ⟨Nat.le_trans (Nat.add_le_add_right hr 1) hresp,
      Nat.le_trans (Nat.add_le_add_right hd _) hdout⟩
  · exact ⟨hresp, hdout⟩

/-- A port that holds anything after its queues lose some was a port of the block. -/
theorem State.QueuesOk.port_lt_of_shrunk (h : s.QueuesOk) {p : Nat} {q : Port}
    (hq : s.port p = Port.empty → q = Port.empty) (hne : q ≠ Port.empty) : p < s.params.nports :=
  h.port_lt fun he => hne (hq he)

theorem State.Inv.dinDrop (h : s.Inv) (k : Nat) : (s.dinDrop k).Inv := by
  have hf := h.queues.fits s.cmdPort
  refine h.setPort (h.queues.port_lt_of_shrunk fun he => ?_)
    { hf with dinq := Nat.le_trans (by simp [State.here]) hf.dinq } fun _ => ⟨Nat.le_refl _, Nat.le_refl _⟩
  simp [State.here, he, Port.empty]

theorem State.Inv.respPush (h : s.Inv) (hc : s.core ≠ .exec .planning)
    (hp : s.cmdPort < s.params.nports) (hroom : s.here.respq.length + 1 ≤ s.params.respDepth)
    (w : Word64) : (s.respPush w).Inv :=
  h.setPort (fun _ => hp) { h.queues.fits s.cmdPort with respq := by simpa using hroom }
    fun hpl => absurd hpl hc

theorem State.Inv.doutPush (h : s.Inv) (hc : s.core ≠ .exec .planning)
    (hp : s.cmdPort < s.params.nports) {bytes : List Byte}
    (hroom : s.here.doutq.length + bytes.length ≤ s.params.doutDepth) : (s.doutPush bytes).Inv :=
  h.setPort (fun _ => hp) { h.queues.fits s.cmdPort with doutq := by simpa using hroom }
    fun hpl => absurd hpl hc

theorem FaultCode.code_bounds (c : FaultCode) : 0x01 ≤ c.code ∧ c.code ≤ 0x0D := by
  cases c <;> decide

/-- Fault entry: HALTED, with a fault of 60_exceptions.md R301 recorded, and no session. -/
theorem State.Inv.raise (h : s.Inv) (hc : s.core ≠ .exec .drawing)
    (hp : s.cmdPort < s.params.nports) (hroom : s.here.respq.length + 1 ≤ s.params.respDepth)
    (t : Trap) : (s.raise t).Inv where
  params := h.params
  regs := h.regs
  payload := h.payload
  gen := h.gen
  sol := h.sol
  queues := h.queues.setPort (fun _ => hp)
    { h.queues.fits s.cmdPort with respq := by simpa using hroom }
  session := ⟨by simp, by simp, by simp⟩
  draw := ⟨by simp, fun _ => h.rngIn_eq_nil hc⟩
  fault := ⟨by simp [State.faultRecord], by simp [State.faultRecord], fun _ => t.code.code_bounds⟩

theorem State.Inv.writeReg (h : s.Inv) {rd : SIdx} {x : Slice} (hregs : (s.writeReg rd x).RegsOk) :
    (s.writeReg rd x).Inv :=
  { h with regs := hregs }

theorem mem_writeAll {m : Memory} {a : Nat} {bs : List Byte} {e : Host.Cell}
    (h : e ∈ Memory.writeAll m a bs) : e.1 < a + bs.length ∨ e ∈ m := by
  induction bs generalizing m a with
  | nil => exact .inr h
  | cons b bs ih =>
    obtain hlt | hmem := ih h
    · exact .inl (by rw [List.length_cons]; omega)
    · obtain rfl | hmem := mem_setEntry hmem
      · exact .inl (by simp)
      · exact .inr hmem

/-- A number within the range of a parameter of 00_scope.md R7 fits its field. -/
theorem toNat_ofNat_of_le {w n b : Nat} (h : n ≤ b) (hb : b ≤ 2 ^ w - 1) :
    (BitVec.ofNat w n).toNat = n := by
  rw [BitVec.toNat_ofNat]
  exact Nat.mod_eq_of_lt (by have := Nat.two_pow_pos w; omega)

theorem State.Inv.afterPayLoad (h : s.Inv) (hc : s.core = .idle) {len : Nat}
    (hlen : len ≤ s.params.pmax) (hin : len ≤ s.here.dinq.length) : (s.afterPayLoad len).Inv := by
  obtain ⟨hwf, hlt, _⟩ := h.payload
  obtain ⟨hgs, hgn, hpos, _⟩ := h.gen
  have htake : (s.here.dinq.take len).length = len := List.length_take_of_le hin
  have hbits : (BitVec.ofNat 32 len).toNat = len := toNat_ofNat_of_le hlen h.pmax_le
  refine { h.dinDrop len with
    gen := ⟨hgs, hgn, hpos, fun hready => by cases hready⟩
    payload := ⟨Memory.wf_writeAll _ _ _ hwf, fun e he => ?_, fun a ha => ?_, hbits.trans_le hlen,
      fun hvalid => by cases hvalid⟩
    draw := ⟨fun hd => ?_, h.rngIn_eq_nil⟩ }
  · obtain hl | hm := mem_writeAll he
    · rw [htake, Nat.zero_add] at hl
      exact Nat.lt_of_lt_of_le hl hlen
    · exact hlt e hm
  · replace ha : a < len := hbits ▸ ha
    have hget : (s.here.dinq.take len)[a]? = some s.here.dinq[a] := by simp [ha]
    show (Memory.read (Memory.writeAll s.pmem 0 (s.here.dinq.take len)) a).isSome = true
    rw [Memory.read_writeAll, htake, if_pos (by omega), Nat.sub_zero, hget]
    rfl
  · exact absurd (hc.symm.trans hd) (by decide)

theorem State.Inv.afterGenInit (h : s.Inv) (hc : s.core = .idle) {sz : Nat} {sys : Bool}
    (hk : checkGenInit sz s = none) : (s.afterGenInit sz sys).Inv := by
  obtain ⟨hvalid, ⟨hpos, hsz⟩, hn⟩ := checkGenInit_eq_none.1 hk
  have hs : (BitVec.ofNat 16 sz).toNat = sz := toNat_ofNat_of_le hsz h.smax_le
  have hN : (BitVec.ofNat 32 (ceilDiv s.payloadLen.toNat sz)).toNat = ceilDiv s.payloadLen.toNat sz :=
    toNat_ofNat_of_le hn h.nmax_le
  exact { h with
    gen := ⟨hs.trans_le hsz, hN.trans_le hn, Nat.zero_le _,
      fun _ => ⟨hvalid, hpos.trans_eq hs.symm, hN.trans (congrArg _ hs.symm)⟩⟩
    draw := ⟨fun hd => absurd (hc.symm.trans hd) (by decide), fun _ => rfl⟩ }

theorem State.Inv.countSystematic (h : s.Inv) (hc : s.core = .idle) (hsys : s.genInSys = true) :
    s.countSystematic.Inv := by
  obtain ⟨hgs, hgn, _, hready⟩ := h.gen
  obtain ⟨_, _, hlt⟩ := s.genInSys_iff.1 hsys
  have hnext : (s.gen.sysPos + 1).toNat = s.gen.sysPos.toNat + 1 := by
    have := s.gen.n.isLt
    rw [BitVec.toNat_add]
    exact Nat.mod_eq_of_lt (by simp; omega)
  exact { h with
    gen := ⟨hgs, hgn, hnext.trans_le hlt, hready⟩
    draw := ⟨fun hd => absurd (hc.symm.trans hd) (by decide), h.rngIn_eq_nil⟩ }

theorem State.Inv.afterDraw (h : s.Inv) : s.afterDraw.Inv := by
  refine { h with gen := h.gen, draw := ⟨fun hd => ?_, fun hd => ?_⟩ }
  · obtain ⟨hready, hsys, hp, hword, hin⟩ := h.drawing hd
    exact ⟨hready, hsys, hp, hword, Nat.le_trans (by simp) hin⟩
  · rw [State.afterDraw_rngIn, h.rngIn_eq_nil hd, List.drop_nil]

/-- A command goes on, or ends, without a fault and outside a session. -/
theorem State.Inv.setCore (h : s.Inv) {c : CoreState} (hs : s.core = .idle ∨ s.core = .exec .drawing)
    (hc : c = .idle ∨ c = .exec .drawing) (hd : ({ s with core := c } : State).DrawOk) :
    ({ s with core := c } : State).Inv := by
  obtain ⟨hactive, htoken, _⟩ := h.session
  obtain ⟨hfault, hnone, hcause⟩ := h.fault
  have hsp : s.core ≠ .exec .planning := by obtain hs | hs := hs <;> simp [hs]
  have hsh : s.core ≠ .halted := by obtain hs | hs := hs <;> simp [hs]
  have hcp : c ≠ .exec .planning := by obtain hc | hc := hc <;> simp [hc]
  have hch : c ≠ .halted := by obtain hc | hc := hc <;> simp [hc]
  exact { h with
    session := ⟨iff_of_false (mt hactive.1 hsp) hcp, fun ht => absurd (htoken ht) hsp,
      fun hp => absurd hp hcp⟩
    draw := hd
    fault := ⟨iff_of_false (mt hfault.1 hsh) hch, hnone, hcause⟩ }

/-- GEN.NEXT goes into a hold on its draw, or stays in it. -/
theorem State.Inv.holdDraw (h : s.Inv) (hs : s.core = .idle ∨ s.core = .exec .drawing)
    (hd : s.holdDraw.DrawOk) : s.holdDraw.Inv :=
  h.setCore hs (.inr rfl) hd

theorem State.Inv.emit (h : s.Inv) (hs : s.core = .idle ∨ s.core = .exec .drawing) {rd : SIdx}
    {x : Slice} (hr : s.rngIn = []) (hregs : (s.writeReg rd x).RegsOk) : (s.emit rd x).Inv :=
  State.Inv.setCore (s := { s.writeReg rd x with gen := { s.gen with index := s.gen.index + 1 } })
    { h.writeReg hregs with gen := h.gen } hs (.inl rfl) ⟨fun hd => (by cases hd), fun _ => hr⟩

theorem State.Inv.afterSolInit (h : s.Inv) (hc : s.core = .idle) {sz tl : Nat}
    (hk : checkSolInit sz tl s = none) (htl : tl < 2 ^ 32) : (s.afterSolInit sz tl).Inv := by
  obtain ⟨⟨hpos, hsz⟩, hn⟩ := checkSolInit_eq_none.1 hk
  have hs : (BitVec.ofNat 16 sz).toNat = sz := toNat_ofNat_of_le hsz h.smax_le
  have hN : (BitVec.ofNat 32 (ceilDiv tl sz)).toNat = ceilDiv tl sz := toNat_ofNat_of_le hn h.nmax_le
  have hT : (BitVec.ofNat 32 tl).toNat = tl := Nat.mod_eq_of_lt htl
  exact { h with
    sol := ⟨hs.trans_le hsz, hN.trans_le hn, Nat.zero_le _, fun x hx => (List.not_mem_nil hx).elim,
      fun _ => ⟨hpos.trans_eq hs.symm, hN.trans (congrArg₂ _ hT.symm hs.symm)⟩,
      fun hr => by cases hr⟩
    session := ⟨h.active_iff, h.token_in_session, fun hp => absurd (hc.symm.trans hp) (by decide)⟩ }

/-- Another row file of the solver's shape, with as many rows as a session needs. -/
theorem State.Inv.setRows (h : s.Inv) (hready : s.sol.ready = true) {rows : List Slice}
    (hmax : rows.length ≤ s.params.rmax)
    (hshape : ∀ x ∈ rows, x.n = s.sol.n.toNat ∧ x.s = s.sol.s.toNat)
    (hrows : s.core = .exec .planning → s.sol.n.toNat ≤ rows.length) : (s.setRows rows).Inv := by
  obtain ⟨hs, hn, _, _, hsizes, _⟩ := h.sol
  refine { h with
    sol := ⟨hs, hn, hmax, hshape, hsizes, fun hr => ?_⟩
    session := ⟨h.active_iff, h.token_in_session, fun hp => ?_⟩ }
  · cases hready.symm.trans hr
  · obtain ⟨_, _, hrest⟩ := h.planning hp
    exact ⟨hready, hrows hp, hrest⟩

/-- A row of the solver's shape is appended while there is room for it. -/
theorem State.Inv.appendRow (h : s.Inv) (hc : s.core = .idle) (hready : s.sol.ready = true)
    (hroom : s.solRows ≠ s.params.rmax) {x : Slice}
    (hx : x.n = s.sol.n.toNat ∧ x.s = s.sol.s.toNat) : (s.appendRow x).Inv := by
  obtain ⟨_, _, hmax, hshape, _⟩ := h.sol
  refine h.setRows hready ?_ (fun y hy => ?_) fun hp => absurd (hc.symm.trans hp) (by decide)
  · rw [List.length_append, List.length_singleton]
    exact Nat.lt_of_le_of_ne hmax hroom
  · obtain hy | hy := List.mem_append.1 hy
    · exact hshape y hy
    · exact List.mem_singleton.1 hy ▸ hx

/-- A step of a plan: as many rows as before, all of the solver's shape. -/
theorem State.Inv.afterToken (h : s.Inv) (hc : s.core = .exec .planning) {rows : List Slice}
    (hlen : rows.length = s.sol.rows.length)
    (hshape : ∀ x ∈ rows, x.n = s.sol.n.toNat ∧ x.s = s.sol.s.toNat) : (s.afterToken rows).Inv := by
  obtain ⟨_, _, hmax, _⟩ := h.sol
  obtain ⟨hready, hrows, _⟩ := h.planning hc
  have hset := h.setRows hready (hlen.trans_le hmax) hshape fun _ => hrows.trans_eq hlen.symm
  exact { hset with session := hset.session }

theorem State.Inv.answerAbsent (h : s.Inv) (hc : s.core ≠ .exec .planning)
    (hp : s.cmdPort < s.params.nports) (hroom : s.here.respq.length + 1 ≤ s.params.respDepth) :
    s.answerAbsent.Inv := by
  have hr := h.respPush hc hp hroom (tryResponse false)
  obtain ⟨hs, hn, hmax, hshape, hsizes, huninit⟩ := h.sol
  refine { hr with sol := ⟨hs, hn, hmax, hshape, hsizes, fun hready => ?_⟩, session := hr.session }
  obtain ⟨hrows, htl, hsolved, _⟩ := huninit hready
  exact ⟨hrows, htl, hsolved, rfl⟩

theorem State.Inv.openSession (h : s.Inv) (hc : s.core = .idle) (hready : s.sol.ready = true)
    (hrows : s.sol.n.toNat ≤ s.solRows) (hword : decodeCommand s.cmdWord = .command .solTry)
    (hp : s.cmdPort < s.params.nports) (hresp : s.here.respq.length + 1 ≤ s.params.respDepth)
    (hdout : s.here.doutq.length + s.sol.tl.toNat ≤ s.params.doutDepth) : s.openSession.Inv := by
  obtain ⟨hfault, hnone, hcause⟩ := h.fault
  exact { h with
    session := ⟨by simp, by simp, fun _ => ⟨hready, hrows, hword, hp, hresp, hdout⟩⟩
    draw := ⟨by simp, fun _ => h.rngIn_eq_nil (by simp [hc])⟩
    fault := ⟨iff_of_false (mt hfault.1 (by simp [hc])) (by simp), hnone, hcause⟩ }

theorem State.Inv.closeSession (h : s.Inv) (hc : s.core = .exec .planning) : s.closeSession.Inv := by
  obtain ⟨hfault, hnone, hcause⟩ := h.fault
  exact { h with
    session := ⟨by simp, by simp, by simp⟩
    draw := ⟨by simp, fun _ => h.rngIn_eq_nil (by simp [hc])⟩
    fault := ⟨iff_of_false (mt hfault.1 (by simp [hc])) (by simp), hnone, hcause⟩ }

theorem State.Inv.markSolved (h : s.Inv) (hready : s.sol.ready = true) : s.markSolved.Inv := by
  obtain ⟨hs, hn, hmax, hshape, hsizes, _⟩ := h.sol
  exact { h with
    sol := ⟨hs, hn, hmax, hshape, hsizes, fun hr => by cases hready.symm.trans hr⟩
    session := h.session }

/-- The head command leaves the queue of a free core's port and is latched. -/
theorem State.Inv.take (h : s.Inv) (hc : s.core = .idle ∨ s.core = .halted) (p : Nat) (w : Word64) :
    (s.take p w).Inv := by
  have hf := h.queues.fits p
  have hq := h.setPort (p := p) (q := { s.port p with cmdq := (s.port p).cmdq.drop 1 })
    (h.queues.port_lt_of_shrunk fun he => by simp [he, Port.empty])
    { hf with cmdq := Nat.le_trans (by simp) hf.cmdq } fun _ => ⟨Nat.le_refl _, Nat.le_refl _⟩
  have hexec (g : Progress) : s.core ≠ .exec g := by obtain hc | hc := hc <;> simp [hc]
  exact { hq with
    session := ⟨hq.active_iff, hq.token_in_session, fun hp => absurd hp (hexec _)⟩
    draw := ⟨fun hd => absurd hd (hexec _), hq.rngIn_eq_nil⟩ }

/-- The token is read from the PLAN port. -/
theorem State.Inv.readToken (h : s.Inv) : ({ s with planIn := none } : State).Inv :=
  { h with session := ⟨h.active_iff, fun hn => absurd rfl hn, h.planning⟩ }

end Rules

end Sys2Proof.Machine

/-!
SUPPORT. What the core finds meets the needs of the rules: a command that is taken is ready
(20_memory.md R88), a command in progress and a plan token are where the invariant says. Then O13,
that every move keeps the invariant.
-/

namespace Sys2Proof.Machine

/-! ### What the decoders give -/

theorem matching_command {w mask pattern : Word64} {i j : Instr}
    (h : matching w mask pattern i = .command j) : i = j := by
  unfold matching at h
  split at h <;> cases h
  rfl

theorem fits_toNat {w : Nat} (x : BitVec w) : fits w x.toNat = true := decide_eq_true x.isLt

/-- A command word decodes to a command whose numbers fit their fields (30_encoding.md R111, R112). -/
theorem decodeCommand_command {w : Word64} {i : Instr} (h : decodeCommand w = .command i) :
    i.wellFormed = true ∧ i.isPlan = false := by
  unfold decodeCommand at h
  split at h
  case h_17 => cases h
  all_goals
    obtain rfl := matching_command h
    simp [Instr.wellFormed, Instr.isPlan, fits_toNat]

/-- A plan token decodes to one of the four (30_encoding.md R118). -/
theorem decodePlan_some {w : Word64} {i : Instr} (h : decodePlan w = some i) : i.isPlan = true := by
  unfold decodePlan at h
  split at h
  · split at h <;> cases h
    rfl
  · cases h; rfl
  · cases h; rfl
  · split at h <;> cases h
    rfl
  · cases h

/-! ### Room for what a ready command pushes -/

/-- The port of the command has the input bytes `d` asks for and room for its output and response. -/
structure State.HasRoom (s : State) (d : Needs) : Prop where
  port : s.cmdPort < s.params.nports
  din : d.din ≤ s.here.dinq.length
  dout : s.here.doutq.length + d.dout ≤ s.params.doutDepth
  resp : s.here.respq.length + d.resp ≤ s.params.respDepth

/-- Instruction `i` is what the core may execute in `s`: IDLE or HALTED, the ready command it has taken;
in a hold on RngDraw, the command in progress; in a session, a plan token. -/
structure State.Starts (s : State) (i : Instr) : Prop where
  command : s.core = .idle ∨ s.core = .halted →
    decodeCommand s.cmdWord = .command i ∧ s.HasRoom (s.needs s.cmdWord)
  draw : s.core = .exec .drawing → decodeCommand s.cmdWord = .command i
  token : s.core = .exec .planning → i.isPlan = true

section Room

variable {s : State} {i : Instr} {w : Word64}

/-- A command taken keeps the bytes and the room that made it ready. -/
theorem State.HasRoom.of_ready (h : s.Inv) {p : Nat} (hw : s.readyCommand p = some w) :
    (s.take p w).HasRoom (s.needs w) := by
  obtain ⟨_, _, hp, hmeets⟩ := State.readyCommand_eq_some.1 hw
  obtain ⟨hdin, hdout, hresp⟩ := State.meets_eq_true.1 hmeets
  have hf := h.queues.fits p
  have hhere : (s.take p w).here = { s.port p with cmdq := (s.port p).cmdq.drop 1 } := by
    simp [State.here]
  refine ⟨hp, ?_, ?_, ?_⟩ <;> simp only [hhere, State.take_params]
  · exact hdin
  · have := hf.doutq; unfold State.doutFree at hdout; omega
  · have := hf.respq; unfold State.respFree at hresp; omega

theorem State.needs_halted (hc : s.core = .halted) : s.needs w = Needs.answerOnly := by
  simp [State.needs, hc]

theorem State.needs_refused (hw : ∀ i, decodeCommand w ≠ .command i) :
    s.needs w = Needs.answerOnly := by
  unfold State.needs
  split
  · rfl
  all_goals
    split
    · exact absurd ‹_› (hw _)
    all_goals rfl

theorem State.needs_trap {u : Trap} (hw : decodeCommand w = .command i) (hk : check i s = some u) :
    s.needs w = Needs.answerOnly := by
  unfold State.needs
  split <;> simp [hw, hk]

theorem State.needs_idle (hc : s.core = .idle) (hw : decodeCommand w = .command i)
    (hk : check i s = none) : s.needs w = commandNeeds i s := by
  simp [State.needs, hc, hw, hk]

theorem State.Starts.room_halted (h : s.Starts i) (hc : s.core = .halted) :
    s.HasRoom Needs.answerOnly :=
  State.needs_halted (w := s.cmdWord) hc ▸ (h.command (.inr hc)).2

theorem State.Starts.room_trap (h : s.Starts i) (hc : s.core = .idle) {u : Trap}
    (hk : check i s = some u) : s.HasRoom Needs.answerOnly := by
  obtain ⟨hw, hroom⟩ := h.command (.inl hc)
  rwa [State.needs_trap hw hk] at hroom

theorem State.Starts.room_effect (h : s.Starts i) (hc : s.core = .idle) (hk : check i s = none) :
    s.HasRoom (commandNeeds i s) := by
  obtain ⟨hw, hroom⟩ := h.command (.inl hc)
  rwa [State.needs_idle hc hw hk] at hroom

end Room

/-- What the core finds to execute, it may execute there, and the invariant still holds there. -/
theorem fetch_run_starts {p : Nat} {s u : State} {i : Instr} (h : s.Inv) (hf : fetch p s = .run i u) :
    u.Inv ∧ u.Starts i := by
  obtain ⟨w, hw, hi, rfl⟩ | ⟨hc, hi, rfl⟩ | ⟨hc, w, _, hi, rfl⟩ := fetch_run hf
  · obtain ⟨_, hfree, _⟩ := State.readyCommand_eq_some.1 hw
    have hc := s.free_iff.1 hfree
    have hexec (g : Progress) : s.core ≠ .exec g := by obtain hc | hc := hc <;> simp [hc]
    exact ⟨h.take hc p w, fun _ => ⟨hi, State.HasRoom.of_ready h hw⟩, fun hd => absurd hd (hexec _),
      fun hp => absurd hp (hexec _)⟩
  · exact ⟨h, fun hidle => by simp [hc] at hidle, fun _ => hi, fun hp => by simp [hc] at hp⟩
  · exact ⟨h.readToken, fun hidle => by simp [hc] at hidle, fun hd => by simp [hc] at hd,
      fun _ => decodePlan_some hi⟩

/-! ### O13: every move keeps the invariant -/

section Steps

variable {s t : State} {i : Instr}

theorem sliceOfImage_shape {n sz : Nat} {img : List Byte} (h : img.length = imageLength n sz) :
    (sliceOfImage n sz img).n = n ∧ (sliceOfImage n sz img).s = sz := by
  refine ⟨length_packBits _ _, ?_⟩
  simp [sliceOfImage, Slice.s, h, imageLength]

/-- Registers keep within the sizes of the block. -/
theorem Executes.regsOk (he : Executes s i t) (h : s.Inv) : t.RegsOk := by
  obtain ⟨_, _, hthere, _⟩ := h.payload
  obtain ⟨hgs, hgn, _⟩ := h.gen
  rw [State.RegsOk, he.params_eq]
  refine he.regs_of_xor (P := fun x => x.n ≤ s.params.nmax ∧ x.s ≤ s.params.smax) (fun x y hx _ => ?_)
    (fun _ j _ x hx => ?_) (fun rd sz n hi hk img himg => ?_) (fun hd => (h.drawing hd).1) h.regs
  · rw [Slice.n_xor, Slice.s_xor]
    exact ⟨Nat.le_trans (Nat.min_le_left _ _) hx.1, Nat.le_trans (Nat.min_le_left _ _) hx.2⟩
  · rw [State.sys_eq hthere, Option.some.injEq] at hx
    subst hx
    exact ⟨(length_unitVector _ _).trans_le hgn, (length_segmentOf _ _ _).trans_le hgs⟩
  · subst hi
    obtain ⟨hsz, hn⟩ := checkSlcCreate_eq_none.1 hk
    obtain ⟨hxn, hxs⟩ := sliceOfImage_shape himg
    exact ⟨hxn.trans_le hn, hxs.trans_le hsz⟩

theorem rowAt_mem {rows : List Slice} {r : Nat} (h : r < rows.length) : rowAt rows r ∈ rows := by
  simp [rowAt, h]

/-- SWAP keeps a property of all rows. -/
theorem forall_applySwap {P : Slice → Prop} {rows : List Slice} (h : ∀ x ∈ rows, P x) (a b : Nat) :
    ∀ x ∈ applySwap a b rows, P x := by
  intro x hx
  unfold applySwap at hx
  split at hx
  · exact h x hx
  · obtain hx | rfl := List.mem_or_eq_of_mem_set hx
    · obtain hx | rfl := List.mem_or_eq_of_mem_set hx
      · exact h x hx
      · exact h _ (rowAt_mem (by omega))
    · exact h _ (rowAt_mem (by omega))

/-- XOR keeps a property of all rows that XOR of slices keeps. -/
theorem forall_applyXor {P : Slice → Prop} (hxor : ∀ x y, P x → P y → P (x.xor y))
    {rows : List Slice} (h : ∀ x ∈ rows, P x) (a b : Nat) : ∀ x ∈ applyXor a b rows, P x := by
  intro x hx
  unfold applyXor at hx
  split at hx
  · exact h x hx
  · obtain hx | rfl := List.mem_or_eq_of_mem_set hx
    · exact h x hx
    · exact hxor _ _ (h _ (rowAt_mem (by omega))) (h _ (rowAt_mem (by omega)))

theorem length_applySwap (a b : Nat) (rows : List Slice) : (applySwap a b rows).length = rows.length := by
  unfold applySwap
  split <;> simp

theorem length_applyXor (a b : Nat) (rows : List Slice) : (applyXor a b rows).length = rows.length := by
  unfold applyXor
  split <;> simp

/-- COMPLETE answers at most SOL_TL bytes, the room its session has kept (20_memory.md R88). -/
theorem State.length_answer_le (s : State) : s.answer.length ≤ s.sol.tl.toNat :=
  List.length_take_le _ _

/-- A GEN.NEXT at a draw is the command the core runs, on a port of the block. -/
theorem State.AtDraw.command {rd : SIdx} (hd : s.AtDraw) (h : s.Inv) (hs : s.Starts (.genNext rd)) :
    decodeCommand s.cmdWord = .command (.genNext rd) ∧ s.cmdPort < s.params.nports := by
  obtain hc | ⟨hc, _⟩ := hd
  · obtain ⟨_, _, hp, _⟩ := h.drawing hc
    exact ⟨hs.draw hc, hp⟩
  · obtain ⟨hw, hroom⟩ := hs.command (.inl hc)
    exact ⟨hw, hroom.port⟩

/-- No byte is left over when the draw it was asked for is done (20_memory.md R97). -/
theorem State.AtDraw.rngIn_le (hd : s.AtDraw) (h : s.Inv) : s.rngIn.length ≤ s.drawBytes := by
  obtain hc | ⟨hc, _⟩ := hd
  · obtain ⟨_, _, _, _, hin⟩ := h.drawing hc
    exact hin
  · simp [h.rngIn_eq_nil (by simp [hc])]

theorem State.AtDraw.idle_or_drawing (hd : s.AtDraw) : s.core = .idle ∨ s.core = .exec .drawing :=
  hd.elim .inr fun hi => .inl hi.1

theorem State.AtDraw.holdDraw_inv {rd : SIdx} (hd : s.AtDraw) (h : s.Inv)
    (hw : decodeCommand s.cmdWord = .command (.genNext rd)) (hp : s.cmdPort < s.params.nports) :
    s.holdDraw.Inv := by
  have hin := hd.rngIn_le h
  refine h.holdDraw hd.idle_or_drawing ⟨fun _ => ?_, fun hc => absurd rfl hc⟩
  obtain hc | ⟨hc, hready, hsys⟩ := hd
  · exact h.drawing hc
  · exact ⟨hready, hsys, hp, ⟨rd, hw⟩, hin⟩

@[simp] theorem State.here_respPush (s : State) (w : Word64) :
    (s.respPush w).here = { s.here with respq := s.here.respq ++ [w] } :=
  (s.port_respPush w _).trans (if_pos rfl)

/-- The end of a session with COMPLETE: the order of its pushes and its closing does not matter. -/
theorem State.Inv.planComplete (h : s.Inv) (hc : s.core = .exec .planning) :
    (((s.respPush (tryResponse true)).doutPush s.answer).closeSession.markSolved).Inv := by
  obtain ⟨hready, _, _, hp, hresp, hdout⟩ := h.planning hc
  have hpushed := (h.closeSession hc).respPush (by simp) hp hresp (tryResponse true)
  have hroom : (s.closeSession.respPush (tryResponse true)).here.doutq.length + s.answer.length ≤
      s.params.doutDepth := by
    rw [State.here_respPush]
    exact Nat.le_trans (Nat.add_le_add_left s.length_answer_le _) hdout
  exact (hpushed.doutPush (by simp) hp hroom).markSolved hready

/-- An instruction executed where the core may execute it keeps the invariant. -/
theorem Executes.keeps_inv (he : Executes s i t) (h : s.Inv) (hs : s.Starts i) : t.Inv := by
  have hregs := he.regsOk h
  obtain ⟨_, _, _, hshape, _⟩ := h.sol
  cases he with
  | halted hc =>
    have room := hs.room_halted hc
    exact h.respPush (by simp [hc]) room.port room.resp _
  | trap hc hk =>
    have room := hs.room_trap hc hk
    exact h.raise (by simp [hc]) room.port room.resp _
  | nop => exact h
  | sync hc =>
    have room := hs.room_effect hc rfl
    exact h.respPush (by simp [hc]) room.port room.resp _
  | csrr hc hv =>
    obtain hc | hc := hc
    · have room := hs.room_effect hc (checkCsrr_eq_none.2 (by simp [hv]))
      exact h.respPush (by simp [hc]) room.port room.resp _
    · have room := hs.room_halted hc
      exact h.respPush (by simp [hc]) room.port room.resp _
  | payLoad hc hk hin => exact h.afterPayLoad hc (checkPayLoad_eq_none.1 hk) hin
  | genInit hc hk => exact h.afterGenInit hc hk
  | genSystematic hc hsys hx =>
    exact (h.countSystematic hc hsys).emit (.inl hc) (h.rngIn_eq_nil (by simp [hc])) hregs
  | genHold hd hin =>
    obtain ⟨hw, hp⟩ := hd.command h hs
    exact hd.holdDraw_inv h hw hp
  | genEmit hd hin hx =>
    exact h.afterDraw.emit hd.idle_or_drawing (List.drop_eq_nil_of_le (hd.rngIn_le h)) hregs
  | genDiscard hd hin =>
    obtain ⟨hw, hp⟩ := hd.command h hs
    exact State.AtDraw.holdDraw_inv (s := s.afterDraw) hd h.afterDraw hw hp
  | slcCreate hc hk hin => exact (h.dinDrop _).writeReg hregs
  | slcClone | slcXor | split | mix => exact h.writeReg hregs
  | slcOut hc hk =>
    have room := hs.room_effect hc hk
    exact h.doutPush (by simp [hc]) room.port (by rw [length_image]; exact room.dout)
  | solInit hc hk =>
    have hwf := (decodeCommand_command (hs.command (.inl hc)).1).1
    simp only [Instr.wellFormed, fits, Bool.and_eq_true, decide_eq_true_eq] at hwf
    exact h.afterSolInit hc hk hwf.2
  | solRem hc hk =>
    obtain ⟨hready, _, hx, hroom⟩ := checkSolRem_eq_none.1 hk
    exact h.appendRow hc hready hroom hx
  | solRemin hc hk hin =>
    obtain ⟨hready, hroom⟩ := checkSolRemin_eq_none.1 hk
    exact (h.dinDrop _).appendRow hc hready hroom (sliceOfImage_shape (List.length_take_of_le hin))
  | solAbsent hc hk =>
    have room := hs.room_effect hc hk
    exact h.answerAbsent (by simp [hc]) room.port room.resp
  | solOpen hc hk hr =>
    have room := hs.room_effect hc hk
    exact h.openSession hc (checkSolTry_eq_none.1 hk) hr (hs.command (.inl hc)).1 room.port room.resp
      room.dout
  | planSwap hc => exact h.afterToken hc (length_applySwap _ _ _) (forall_applySwap hshape _ _)
  | planXor hc =>
    refine h.afterToken hc (length_applyXor _ _ _) (forall_applyXor (fun x y hx hy => ?_) hshape _ _)
    rw [Slice.n_xor, Slice.s_xor, hx.1, hx.2, hy.1, hy.2]
    exact ⟨Nat.min_self _, Nat.min_self _⟩
  | planComplete hc => exact h.planComplete hc
  | planEnd hc =>
    obtain ⟨_, _, _, hp, hresp, _⟩ := h.planning hc
    exact (h.closeSession hc).answerAbsent (by simp) hp hresp

/-- A refused word, taken when there was room for its answer, keeps the invariant. -/
theorem State.Inv.rejectWord (h : s.Inv) (hc : s.core = .idle ∨ s.core = .halted)
    (room : s.HasRoom Needs.answerOnly) (c : FaultCode) : (s.rejectWord c).Inv := by
  obtain hc | hc := hc
  · rw [show s.rejectWord c = s.raise ⟨c, 0⟩ by simp [State.rejectWord, hc]]
    exact h.raise (by simp [hc]) room.port room.resp _
  · rw [show s.rejectWord c = s.answerHalted by simp [State.rejectWord, hc]]
    exact h.respPush (by simp [hc]) room.port room.resp _

/-- What the core answers to a word that is no instruction keeps the invariant. -/
theorem fetch_answered_inv {p : Nat} (h : s.Inv) (hf : fetch p s = .answered t) : t.Inv := by
  obtain ⟨w, c, hw, hi, rfl⟩ | ⟨hc, hi, _⟩ | ⟨hc, u, rfl⟩ := fetch_answered hf
  · obtain ⟨_, hfree, _⟩ := State.readyCommand_eq_some.1 hw
    have hc := s.free_iff.1 hfree
    have room := State.HasRoom.of_ready h hw
    rw [State.needs_refused hi] at room
    exact (h.take hc p w).rejectWord hc room c
  · obtain ⟨_, _, _, ⟨rd, hrd⟩, _⟩ := h.drawing hc
    exact absurd hrd (hi _)
  · obtain ⟨_, _, _, hp, hresp, _⟩ := h.planning hc
    exact h.readToken.raise (by simp [hc]) hp hresp u

theorem coreTurn_inv {p : Nat} (h : s.Inv) (ht : coreTurn p s = .next t) : t.Inv := by
  obtain ⟨_, rfl⟩ | ⟨i, u, hf, he⟩ | hf := coreTurn_next ht
  · exact h
  · obtain ⟨hu, hstarts⟩ := fetch_run_starts h hf
    exact (executes_of_exec he).keeps_inv hu hstarts
  · exact fetch_answered_inv h hf

/-! ### The other agents keep the invariant -/

theorem State.Inv.pushCmd (h : s.Inv) (p : Nat) (w : Word64) : (s.pushCmd p w).Inv := by
  rw [State.pushCmd_eq]
  split
  · next hroom =>
    exact h.setPort (fun _ => hroom.1) { h.queues.fits p with cmdq := by simpa using hroom.2 }
      fun _ => ⟨Nat.le_refl _, Nat.le_refl _⟩
  · exact h

theorem State.Inv.pushByte (h : s.Inv) (p : Nat) (b : Byte) : (s.pushByte p b).Inv := by
  rw [State.pushByte_eq]
  split
  · next hroom =>
    exact h.setPort (fun _ => hroom.1) { h.queues.fits p with dinq := by simpa using hroom.2 }
      fun _ => ⟨Nat.le_refl _, Nat.le_refl _⟩
  · exact h

theorem State.Inv.popByte (h : s.Inv) (p : Nat) : (s.popByte p).Inv := by
  have hf := h.queues.fits p
  exact h.setPort (h.queues.port_lt_of_shrunk fun he => by simp [he, Port.empty])
    { hf with doutq := Nat.le_trans (by simp) hf.doutq } fun _ => ⟨Nat.le_refl _, by simp⟩

theorem State.Inv.popResp (h : s.Inv) (p : Nat) : (s.popResp p).Inv := by
  have hf := h.queues.fits p
  exact h.setPort (h.queues.port_lt_of_shrunk fun he => by simp [he, Port.empty])
    { hf with respq := Nat.le_trans (by simp) hf.respq } fun _ => ⟨by simp, Nat.le_refl _⟩

theorem State.Inv.supplyByte (h : s.Inv) (b : Byte) : (s.supplyByte b).Inv := by
  rw [State.supplyByte_eq]
  split
  · next hwant =>
    obtain ⟨hready, hsys, hp, hword, _⟩ := h.drawing hwant.1
    exact { h with
      draw := ⟨fun _ => ⟨hready, hsys, hp, hword, (List.length_append ..).trans_le hwant.2⟩,
        fun hd => absurd hwant.1 hd⟩ }
  · exact h

theorem State.Inv.supplyToken (h : s.Inv) (w : Word64) : (s.supplyToken w).Inv := by
  unfold State.supplyToken
  split
  · next hwant => exact { h with session := ⟨h.active_iff, fun _ => hwant.1, h.planning⟩ }
  · exact h

/-- Reset meets the invariant, whatever the parameters of the block (70_reset_and_hazards.md R340). -/
theorem State.Inv.hardReset (h : s.Inv) : s.hardReset.Inv where
  params := h.params
  regs k hv := by simp [State.hardReset, State.reset, State.reg, SReg.reset] at hv
  payload := ⟨reset_memory_wf, by simp [State.hardReset, State.reset], by simp [State.hardReset, State.reset],
    Nat.zero_le _, fun _ => rfl⟩
  gen := ⟨Nat.zero_le _, Nat.zero_le _, Nat.zero_le _, fun hr => by cases hr⟩
  sol := ⟨Nat.zero_le _, Nat.zero_le _, Nat.zero_le _, fun x hx => (List.not_mem_nil hx).elim,
    fun hr => (by cases hr), fun _ => ⟨rfl, rfl, rfl, rfl⟩⟩
  queues := ⟨⟨List.Pairwise.nil, fun e he => (List.not_mem_nil he).elim⟩,
    fun e he => (List.not_mem_nil he).elim⟩
  session := ⟨by simp [State.hardReset, State.reset], by simp [State.hardReset, State.reset],
    by simp [State.hardReset, State.reset]⟩
  draw := ⟨by simp [State.hardReset, State.reset], fun _ => rfl⟩
  fault := ⟨by simp [State.hardReset, State.reset], fun _ => rfl, fun hf => by cases hf⟩

/-- The moves to come are no part of the invariant. -/
theorem State.Inv.nextMove (h : s.Inv) : s.nextMove.2.Inv := by
  rw [s.nextMove_state]
  exact { h with session := h.session }

theorem move_inv {e : Event} (h : s.Inv) (ht : move e s = .next t) : t.Inv := by
  cases e with
  | core p => exact coreTurn_inv h ht
  | pushCmd p w => cases ht; exact h.pushCmd p w
  | pushByte p b => cases ht; exact h.pushByte p b
  | popByte p => cases ht; exact h.popByte p
  | popResp p => cases ht; exact h.popResp p
  | rng b => cases ht; exact h.supplyByte b
  | plan w => cases ht; exact h.supplyToken w
  | rst => cases ht; exact h.hardReset

end Steps

/-- Settles O13: whichever agent moves, by `move_inv`. -/
theorem stepKeepsTheInvariant : Obligations.StepKeepsTheInvariant :=
  fun _ _ h ht => move_inv h.nextMove ht

end Sys2Proof.Machine

/-!
SUPPORT. Progress: what the core finds has a next state. The payload is there, so no unwritten byte is
read; the bytes of a ready command are there; commands are found outside sessions and tokens inside.
Then O14.
-/

namespace Sys2Proof.Machine

section Progress

variable {s : State} {i : Instr}

/-- A command taken by a free core goes on if its effect does. -/
theorem runCommand_goes {c : Option Trap} {e : Host.Outcome State Fault Refusal}
    (hc : s.core = .idle ∨ s.core = .halted)
    (he : s.core = .idle → c = none → ∃ t, e = .next t) : ∃ t, runCommand s c e = .next t := by
  obtain hc | hc := hc
  · cases c with
    | some u => exact ⟨_, runCommand_trap hc u e⟩
    | none => rw [runCommand_effect hc]; exact he hc rfl
  · exact ⟨_, runCommand_halted hc c e⟩

/-- A selection that takes anything has a mix when the payload is there. -/
theorem State.mixSel_goes (h : s.PayloadThere) {sel : List Bool} (hsel : sel.any id = true) :
    ∃ x, s.mixSel sel = some x := by
  have hall : allSome ((selected sel).map s.sys) = some ((selected sel).map fun j =>
      ⟨unitVector s.gen.n.toNat j, segmentOf s.payload s.gen.s.toNat j⟩) := by
    rw [allSome_eq_some, List.map_map]
    exact List.map_congr_left fun j _ => State.sys_eq h j
  rw [State.mixSel, hall, Option.bind_some]
  cases hl : selected sel with
  | cons j js => exact ⟨_, rfl⟩
  | nil =>
    obtain ⟨b, hb, hbt⟩ := List.any_eq_true.1 hsel
    obtain ⟨j, hj, rfl⟩ := List.getElem_of_mem hb
    have hmem := (mem_selected sel j).2 ⟨hj, by simpa [hj] using hbt⟩
    rw [hl] at hmem
    exact (List.not_mem_nil hmem).elim

theorem drawOnce_goes (h : s.PayloadThere) (rd : SIdx) : ∃ t, drawOnce rd s = .next t := by
  unfold drawOnce
  split
  · exact ⟨_, rfl⟩
  · split
    · next hsel =>
      obtain ⟨x, hx⟩ := State.mixSel_goes h hsel
      exact ⟨s.afterDraw.emit rd x, by rw [hx]⟩
    · exact ⟨_, rfl⟩

theorem execGenNext_goes (h : s.PayloadThere) (rd : SIdx)
    (hc : (s.core = .idle ∨ s.core = .halted) ∨ s.core = .exec .drawing) :
    ∃ t, execGenNext rd s = .next t := by
  obtain hc | hc := hc
  · rw [execGenNext_start (by obtain hc | hc := hc <;> simp [hc])]
    refine runCommand_goes hc fun _ _ => ?_
    split
    · exact ⟨s.countSystematic.emit rd _, by rw [emitSystematic, State.sys_eq h]; rfl⟩
    · exact drawOnce_goes h rd
  · rw [execGenNext_resume hc]
    exact drawOnce_goes h rd

/-- A command other than GEN.NEXT is found by a free core only. -/
theorem State.Starts.core_of_command (hs : s.Starts i) (h : s.Inv) (hi : i.isPlan = false)
    (hgen : ∀ rd, i ≠ .genNext rd) : s.core = .idle ∨ s.core = .halted := by
  match hc : s.core with
  | .idle => exact .inl rfl
  | .halted => exact .inr rfl
  | .exec .drawing =>
    obtain ⟨_, _, _, ⟨rd, hrd⟩, _⟩ := h.drawing hc
    exact absurd (Decoded.command.inj ((hs.draw hc).symm.trans hrd)) (hgen rd)
  | .exec .planning => exact absurd ((hs.token hc).symm.trans hi) (by decide)

/-- A plan token is found inside a session only. -/
theorem State.Starts.core_of_token (hs : s.Starts i) (hi : i.isPlan = true) :
    s.core = .exec .planning := by
  have command (hw : decodeCommand s.cmdWord = .command i) : False :=
    absurd (hi.symm.trans (decodeCommand_command hw).2) (by decide)
  match hc : s.core with
  | .idle => exact (command (hs.command (.inl hc)).1).elim
  | .halted => exact (command (hs.command (.inr hc)).1).elim
  | .exec .drawing => exact (command (hs.draw hc)).elim
  | .exec .planning => rfl

theorem State.Starts.core_of_genNext {rd : SIdx} (hs : s.Starts (.genNext rd)) :
    (s.core = .idle ∨ s.core = .halted) ∨ s.core = .exec .drawing := by
  match hc : s.core with
  | .idle => exact .inl (.inl rfl)
  | .halted => exact .inl (.inr rfl)
  | .exec .drawing => exact .inr rfl
  | .exec .planning => cases hs.token hc

theorem execCsrr_goes (hc : s.core = .idle ∨ s.core = .halted) (c : Nat) :
    ∃ t, execCsrr c s = .next t := by
  unfold execCsrr
  split
  · exact runCommand_goes hc fun _ _ => ⟨s, rfl⟩
  · next v _ => exact ⟨s.respPush (response 0x02 v), by obtain hc | hc := hc <;> simp [hc]⟩

/-- What the core may execute has a next state. -/
theorem exec_goes (h : s.Inv) (hs : s.Starts i) : ∃ t, exec i s = .next t := by
  obtain ⟨_, _, hthere, _⟩ := h.payload
  have free := hs.core_of_command h
  cases i with
  | nop | sync => exact runCommand_goes (c := none) (free rfl (by simp)) fun _ _ => ⟨_, rfl⟩
  | csrr c => exact execCsrr_goes (free rfl (by simp)) c
  | genNext rd => exact execGenNext_goes hthere rd hs.core_of_genNext
  | payLoad | slcCreate | solRemin =>
    exact runCommand_goes (free rfl (by simp)) fun hc hk =>
      ⟨_, withInput_ready (hs.room_effect hc hk).din _⟩
  | split rd j =>
    refine runCommand_goes (free rfl (by simp)) fun _ _ => ?_
    rw [State.sys_eq hthere]
    exact ⟨_, rfl⟩
  | genInit | slcClone | slcXor | slcOut | mix | solInit | solRem | solTry =>
    exact runCommand_goes (free rfl (by simp)) fun _ _ => ⟨_, rfl⟩
  | planEnd | planSwap | planXor | planComplete => exact ⟨_, inSession_open (hs.core_of_token rfl) _⟩

theorem coreTurn_goes (h : s.Inv) (p : Nat) : ∃ t, coreTurn p s = .next t := by
  unfold coreTurn
  split
  · exact ⟨_, rfl⟩
  · next hf =>
    obtain ⟨hu, hstarts⟩ := fetch_run_starts h hf
    exact exec_goes hu hstarts
  · exact ⟨_, rfl⟩

theorem move_goes (h : s.Inv) (e : Event) : ∃ t, move e s = .next t := by
  cases e with
  | core p => exact coreTurn_goes h p
  | _ => exact ⟨_, rfl⟩

end Progress

/-- Settles O14: only the core's turn could stop, and what it finds has a next state. -/
theorem stepNeverStops : Obligations.StepNeverStops :=
  fun s h => move_goes h.nextMove s.nextMove.1

end Sys2Proof.Machine

/-!
SUPPORT. Which queues a command uses (20_memory.md R86, R95): its own port's, input from the front,
output and responses at the back; then O21.
-/

namespace Sys2Proof.Machine

/-- Between `s` and `t` only the port of the command has been used: its input is taken from the front,
its output and responses are added at the back, and the command is still the one latched. -/
structure State.UsesOwnPort (s t : State) : Prop where
  cmdPort : t.cmdPort = s.cmdPort
  cmdWord : t.cmdWord = s.cmdWord
  others : ∀ p, p ≠ s.cmdPort → t.port p = s.port p
  own : ∃ k out resp, t.here =
    ⟨s.here.cmdq, s.here.dinq.drop k, s.here.doutq ++ out, s.here.respq ++ resp⟩

namespace State.UsesOwnPort

variable {s t u : State}

/-- Only the ports and the latches matter. -/
theorem congr (h : s.UsesOwnPort t) (hports : u.ports = t.ports) (hp : u.cmdPort = t.cmdPort)
    (hw : u.cmdWord = t.cmdWord) : s.UsesOwnPort u := by
  have hport (p : Nat) : u.port p = t.port p := by rw [State.port, State.port, hports]
  refine ⟨hp.trans h.cmdPort, hw.trans h.cmdWord, fun p hne => (hport p).trans (h.others p hne), ?_⟩
  rw [State.here, hp, hport]
  exact h.own

theorem refl (s : State) : s.UsesOwnPort s := ⟨rfl, rfl, fun _ _ => rfl, 0, [], [], by simp⟩

/-- Replacing the queues of the port of the command by such queues. -/
theorem setPort (s : State) (k : Nat) (out : List Byte) (resp : List Word64) :
    s.UsesOwnPort (s.setPort s.cmdPort
      ⟨s.here.cmdq, s.here.dinq.drop k, s.here.doutq ++ out, s.here.respq ++ resp⟩) := by
  refine ⟨rfl, rfl, fun p hne => ?_, k, out, resp, ?_⟩
  · rw [State.port_setPort, if_neg hne.symm]
  · rw [State.here, State.setPort_cmdPort, State.port_setPort, if_pos rfl]

theorem respPush (s : State) (w : Word64) : s.UsesOwnPort (s.respPush w) := by
  simpa [State.respPush] using setPort s 0 [] [w]

theorem doutPush (s : State) (bytes : List Byte) : s.UsesOwnPort (s.doutPush bytes) := by
  simpa [State.doutPush] using setPort s 0 bytes []

theorem dinDrop (s : State) (k : Nat) : s.UsesOwnPort (s.dinDrop k) := by
  simpa [State.dinDrop] using setPort s k [] []

theorem trans (h : s.UsesOwnPort t) (h' : t.UsesOwnPort u) : s.UsesOwnPort u := by
  obtain ⟨k, out, resp, ht⟩ := h.own
  obtain ⟨k', out', resp', hu⟩ := h'.own
  refine ⟨h'.cmdPort.trans h.cmdPort, h'.cmdWord.trans h.cmdWord, fun p hne => ?_,
    k + k', out ++ out', resp ++ resp', ?_⟩
  · rw [h'.others p (by rwa [h.cmdPort]), h.others p hne]
  · simp [hu, ht, List.append_assoc]

/-- No command queue changes. -/
theorem cmdq_eq (h : s.UsesOwnPort t) (p : Nat) : (t.port p).cmdq = (s.port p).cmdq := by
  by_cases hp : p = s.cmdPort
  · obtain ⟨_, _, _, hown⟩ := h.own
    subst hp
    rw [State.here, h.cmdPort] at hown
    rw [hown]
    rfl
  · rw [h.others p hp]

end State.UsesOwnPort

/-- An instruction uses the port of its command only. -/
theorem Executes.usesOwnPort {s t : State} {i : Instr} (h : Executes s i t) : s.UsesOwnPort t := by
  cases h with
  | halted | sync | csrr => exact .respPush s _
  | trap | solAbsent | planEnd => exact (State.UsesOwnPort.respPush s _).congr rfl rfl rfl
  | payLoad | slcCreate | solRemin => exact (State.UsesOwnPort.dinDrop s _).congr rfl rfl rfl
  | slcOut => exact .doutPush s _
  | planComplete =>
    exact ((State.UsesOwnPort.respPush s _).trans (.doutPush _ _)).congr rfl rfl rfl
  | _ => exact (State.UsesOwnPort.refl s).congr rfl rfl rfl

/-- Settles O21. -/
theorem commandsUseOnlyTheirOwnPort : Obligations.CommandsUseOnlyTheirOwnPort := by
  intro i s t h
  have hu := (executes_of_exec h).usesOwnPort
  obtain ⟨k, out, resp, hown⟩ := hu.own
  rw [hown]
  exact ⟨hu.cmdPort, hu.others, rfl, ⟨k, rfl⟩, ⟨out, rfl⟩, ⟨resp, rfl⟩⟩

end Sys2Proof.Machine

/-!
SUPPORT. When a command is ready (20_memory.md R88): the queues against its needs. A turn that finds
nothing ready is a wait. Then O9, O6.
-/

namespace Sys2Proof.Machine

section Readiness

variable {s : State} {p : Nat} {w : Word64} {i : Instr}

/-- Whether the head command of a port of the block is ready, when the core is free, is up to the
queues. -/
theorem State.readyCommand_iff_meets (hq : (s.port p).cmdq.head? = some w) (hp : p < s.params.nports)
    (hc : s.core = .idle ∨ s.core = .halted) :
    s.readyCommand p = some w ↔ s.meets p (s.needs w) = true := by
  have hhead : ∃ rest, (s.port p).cmdq = w :: rest := List.head?_eq_some_iff.1 hq
  rw [State.readyCommand_eq_some]
  simp [hhead, s.free_iff.2 hc, hp]

theorem State.meets_answerOnly :
    s.meets p Needs.answerOnly = true ↔ 1 ≤ s.params.respDepth - (s.port p).respq.length := by
  simp [State.meets_eq_true, Needs.answerOnly, State.respFree]

/-- Readiness of a command whose checks pass: the three sizes of its needs. -/
theorem State.readyCommand_iff_needs (hq : (s.port p).cmdq.head? = some w) (hp : p < s.params.nports)
    (hc : s.core = .idle) (hw : decodeCommand w = .command i) (hk : check i s = none) :
    s.readyCommand p = some w ↔
      (commandNeeds i s).din ≤ (s.port p).dinq.length ∧
      (commandNeeds i s).dout ≤ s.params.doutDepth - (s.port p).doutq.length ∧
      (commandNeeds i s).resp ≤ s.params.respDepth - (s.port p).respq.length := by
  rw [State.readyCommand_iff_meets hq hp (.inl hc), State.needs_idle hc hw hk]
  exact State.meets_eq_true

/-- A command whose input or output is larger than its queue is never ready (70_reset_and_hazards.md
R351): no queue holds more than its depth, and no more than that is ever free. -/
theorem State.readyCommand_eq_none_of_oversized (h : s.Inv) (hc : s.core = .idle)
    (hq : (s.port p).cmdq.head? = some w) (hw : decodeCommand w = .command i) (hk : check i s = none)
    (hbig : s.params.dinDepth < (commandNeeds i s).din ∨ s.params.doutDepth < (commandNeeds i s).dout) :
    s.readyCommand p = none := by
  rw [Option.eq_none_iff_forall_ne_some]
  intro v hv
  obtain ⟨⟨_, hhead⟩, _, hp, _⟩ := State.readyCommand_eq_some.1 hv
  obtain rfl : v = w := by simpa [hhead] using hq
  obtain ⟨hdin, hdout, _⟩ := (State.readyCommand_iff_needs hq hp hc hw hk).1 hv
  have := (h.queues.fits p).dinq
  omega

/-- The size of a byte image as R101 writes it. -/
theorem imageLength_eq (n sz : Nat) : imageLength n sz = ceilDiv n 8 + sz := rfl

/-- Settles O9: the sizes of R101 are those `commandNeeds` lists. -/
theorem commandsAreReadyExactlyWhenTheirQueuesFit :
    Obligations.CommandsAreReadyExactlyWhenTheirQueuesFit := by
  refine ⟨fun s p w hw => ?_, fun s p w hq hp => ⟨fun hc => ?_, fun hc hw => ?_,
    fun i hc hw => ⟨fun hk => ?_, fun hk => ?_⟩⟩, fun s p w i h hc hq hw hk hbig => ?_⟩
  · obtain ⟨⟨_, hhead⟩, hfree, hp, _⟩ := State.readyCommand_eq_some.1 hw
    exact ⟨by simp [hhead], hp, s.free_iff.1 hfree⟩
  · rw [State.readyCommand_iff_meets hq hp (.inr hc), State.needs_halted hc]
    exact State.meets_answerOnly
  · have hno : ∀ i, decodeCommand w ≠ .command i := by obtain hw | hw := hw <;> simp [hw]
    rw [State.readyCommand_iff_meets hq hp (.inl hc), State.needs_refused hno]
    exact State.meets_answerOnly
  · obtain ⟨u, hu⟩ := Option.ne_none_iff_exists'.1 hk
    rw [State.readyCommand_iff_meets hq hp (.inl hc), State.needs_trap hw hu]
    exact State.meets_answerOnly
  · have sizes := State.readyCommand_iff_needs hq hp hc hw hk
    refine ⟨?_, ?_, ?_, ?_, ?_, ?_, ?_⟩
    · rintro len rfl; simpa [commandNeeds] using sizes
    · rintro rd sz n rfl; simpa [commandNeeds, imageLength_eq] using sizes
    · rintro rfl; simpa [commandNeeds, imageLength_eq] using sizes
    · rintro rs rfl; simpa [commandNeeds, imageLength_eq] using sizes
    · rintro rfl; simpa [commandNeeds] using sizes
    · rintro (rfl | ⟨c, rfl⟩) <;> simpa [commandNeeds] using sizes
    · rintro (rfl | ⟨_, _, rfl⟩ | ⟨_, rfl⟩ | ⟨_, _, rfl | rfl⟩ | ⟨_, _, rfl⟩ | ⟨_, _, rfl⟩ |
        ⟨_, _, rfl⟩ | ⟨_, rfl⟩) <;> simpa [commandNeeds] using sizes
  · refine State.readyCommand_eq_none_of_oversized h hc hq hw hk ?_
    obtain ⟨len, rfl, hlt⟩ | ⟨rd, sz, n, rfl, hlt⟩ | ⟨rfl, hlt⟩ | ⟨rs, rfl, hlt⟩ | ⟨rfl, hlt⟩ := hbig
    · exact .inl hlt
    · exact .inl hlt
    · exact .inl hlt
    · exact .inr hlt
    · exact .inr hlt

/-! ### Waiting -/

/-- A free core that is offered no ready command waits (20_memory.md R88). -/
theorem fetch_not_ready (hc : s.core = .idle ∨ s.core = .halted) (hr : s.readyCommand p = none) :
    fetch p s = .hold := by
  obtain hc | hc := hc <;> simp [fetch, hc, hr]

/-- A session waits for its token (20_memory.md R98). -/
theorem fetchToken_none (h : s.planIn = none) : fetchToken s = .hold := by
  simp [fetchToken, h]

theorem coreTurn_of_hold (h : fetch p s = .hold) : coreTurn p s = .next s := by
  simp [coreTurn, h]

end Readiness

/-- Settles O6. -/
theorem stepHolds : Obligations.StepHolds := by
  refine ⟨fun s u p hm hc hr => ?_, fun s u p hm hc ht => ?_⟩
  · rw [step_of_nextMove hm]
    exact coreTurn_of_hold (fetch_not_ready hc hr)
  · rw [step_of_nextMove hm]
    exact coreTurn_of_hold ((fetch_planning hc p).trans (fetchToken_none ht))

end Sys2Proof.Machine

/-!
SUPPORT. Weak fairness (20_memory.md R87, R89): while a command is ready, no move but the core's turn on
its port takes it from the head of its queue, and that turn serves it; then O7.
-/

namespace Sys2Proof.Machine

section Service

variable {s t : State} {p : Nat} {w : Word64}

/-- A refused word is answered on the port of the command. -/
theorem State.rejectWord_usesOwnPort (s : State) (c : FaultCode) : s.UsesOwnPort (s.rejectWord c) := by
  unfold State.rejectWord
  split
  · exact .respPush s _
  all_goals exact (State.UsesOwnPort.respPush s _).congr rfl rfl rfl

/-- The core's turn on a port with a ready command takes it, and then uses that port only. -/
theorem coreTurn_ready (hw : s.readyCommand p = some w) (h : coreTurn p s = .next t) :
    (s.take p w).UsesOwnPort t := by
  have hfetch := fetch_ready hw
  obtain ⟨hf, _⟩ | ⟨i, u, hf, he⟩ | hf := coreTurn_next h
  · rw [hf] at hfetch
    unfold fetchCommand at hfetch
    split at hfetch <;> cases hfetch
  · obtain ⟨_, rfl⟩ := fetchCommand_run (hfetch.symm.trans hf)
    exact (executes_of_exec he).usesOwnPort
  · obtain ⟨_, c, rfl⟩ := fetchCommand_answered (hfetch.symm.trans hf)
    exact (s.take p w).rejectWord_usesOwnPort c

/-- What serving a ready command does: it is latched, and has left its queue. -/
theorem coreTurn_serves (hw : s.readyCommand p = some w) (h : coreTurn p s = .next t) :
    t.cmdPort = p ∧ t.cmdWord = w ∧ (t.port p).cmdq = (s.port p).cmdq.tail := by
  have hu := coreTurn_ready hw h
  exact ⟨hu.cmdPort, hu.cmdWord, by rw [hu.cmdq_eq]; simp⟩

/-- The core's turn on another port, when the core is free, changes no command queue but that port's. -/
theorem coreTurn_cmdq_of_ne {q : Nat} (hc : s.core = .idle ∨ s.core = .halted) (hq : q ≠ p)
    (h : coreTurn q s = .next t) : (t.port p).cmdq = (s.port p).cmdq := by
  cases hr : s.readyCommand q with
  | none =>
    rw [coreTurn_of_hold (fetch_not_ready hc hr)] at h
    cases h
    rfl
  | some v => rw [(coreTurn_ready hr h).cmdq_eq, State.port_take, if_neg hq]

/-- Replacing the queues of a port but its command queue leaves the head of every command queue. -/
theorem State.head?_setPort {q : Nat} {x : Port} (hx : x.cmdq = (s.port q).cmdq)
    (hq : (s.port p).cmdq.head? = some w) : ((s.setPort q x).port p).cmdq.head? = some w := by
  rw [State.port_setPort]
  split
  · next hqp => rwa [hx, hqp]
  · exact hq

/-- A push of a command word leaves the head of every queue that has one. -/
theorem State.head?_pushCmd {q : Nat} (v : Word64) (hq : (s.port p).cmdq.head? = some w) :
    ((s.pushCmd q v).port p).cmdq.head? = some w := by
  rw [State.pushCmd_eq]
  split
  · rw [State.port_setPort]
    split
    · next hqp => subst hqp; simp [hq]
    · exact hq
  · exact hq

/-- No move but the core's turn on its port, and reset, takes away the head of a command queue while the
core is free. -/
theorem move_head? {e : Event} (hc : s.core = .idle ∨ s.core = .halted)
    (hq : (s.port p).cmdq.head? = some w) (he : e ≠ .core p) (hrst : e ≠ .rst)
    (h : move e s = .next t) : (t.port p).cmdq.head? = some w := by
  cases e with
  | core q => rwa [coreTurn_cmdq_of_ne hc (fun hqp => he (congrArg _ hqp)) h]
  | rst => exact absurd rfl hrst
  | pushCmd q v => cases h; exact State.head?_pushCmd v hq
  | pushByte q b =>
    cases h
    rw [State.pushByte_eq]
    split
    · exact State.head?_setPort rfl hq
    · exact hq
  | popByte q => cases h; exact State.head?_setPort rfl hq
  | popResp q => cases h; exact State.head?_setPort rfl hq
  | rng b => cases h; unfold State.supplyByte; split <;> exact hq
  | plan v => cases h; unfold State.supplyToken; split <;> exact hq

/-- A command that is ready and not served stays the one that is ready, or stops being ready. -/
theorem move_ready {e : Event} (hw : s.readyCommand p = some w) (he : e ≠ .core p)
    (h : move e s = .next t) : t.readyCommand p = none ∨ t.readyCommand p = some w := by
  obtain ⟨⟨_, hhead⟩, hfree, _⟩ := State.readyCommand_eq_some.1 hw
  by_cases hrst : e = .rst
  · subst hrst
    cases h
    exact .inl rfl
  · have hkept := move_head? (s.free_iff.1 hfree) (by rw [hhead]; rfl) he hrst h
    cases hr : t.readyCommand p with
    | none => exact .inl rfl
    | some v =>
      obtain ⟨⟨_, hv⟩, _⟩ := State.readyCommand_eq_some.1 hr
      rw [hv] at hkept
      exact .inr hkept

end Service

/-! ### Runs -/

section Runs

variable {moves : Nat → Event} {run : Nat → State} {p k : Nat} {w : Word64}

/-- At move `j` the core takes command `w` from the queue of port `p`, unless nothing is ready there. -/
def ServedOrUnready (moves : Nat → Event) (run : Nat → State) (p : Nat) (w : Word64) (j : Nat) : Prop :=
  (run j).readyCommand p = none ∨
    (moves j = .core p ∧ (run j).readyCommand p = some w ∧
      (run (j + 1)).cmdPort = p ∧ (run (j + 1)).cmdWord = w ∧
      ((run (j + 1)).port p).cmdq = ((run j).port p).cmdq.tail)

/-- A move of a run starts from its state, up to the moves to come: the queues and what is ready are
those of the run. -/
theorem IsRun.exists_move (h : IsRun moves run) (k : Nat) :
    ∃ u : State, move (moves k) u = .next (run (k + 1)) ∧ (∀ p, u.port p = (run k).port p) ∧
      ∀ p, u.readyCommand p = (run k).readyCommand p := by
  obtain ⟨u, hu, hm⟩ := h k
  refine ⟨u, hm, fun p => ?_, fun p => ?_⟩
  · rw [hu]; rfl
  · rw [hu, State.readyCommand_moves]

/-- The core's turn on the port of a ready command serves it. -/
theorem IsRun.serves (h : IsRun moves run) (hw : (run k).readyCommand p = some w)
    (hm : moves k = .core p) : ServedOrUnready moves run p w k := by
  obtain ⟨u, hu, hport, hready⟩ := h.exists_move k
  rw [hm] at hu
  obtain ⟨hp, hcmd, hq⟩ := coreTurn_serves ((hready p).trans hw) hu
  exact .inr ⟨hm, hw, hp, hcmd, by rw [hq, hport]⟩

/-- Once the core's turn or the end of readiness is `d` moves away, the command that is ready now is the
one that is served, unless it stops being ready before: until then every move keeps it. -/
theorem IsRun.eventually_served (h : IsRun moves run) (d : Nat)
    (hd : moves (k + d) = .core p ∨ (run (k + d)).readyCommand p = none)
    (hw : (run k).readyCommand p = some w) : ∃ j, k ≤ j ∧ ServedOrUnready moves run p w j := by
  induction d generalizing k with
  | zero => exact ⟨k, Nat.le_refl k, hd.elim (h.serves hw) .inl⟩
  | succ d ih =>
    by_cases hm : moves k = .core p
    · exact ⟨k, Nat.le_refl k, h.serves hw hm⟩
    · obtain ⟨u, hu, _, hready⟩ := h.exists_move k
      obtain hnone | hsome := move_ready ((hready p).trans hw) hm hu
      · exact ⟨k + 1, Nat.le_succ k, .inl hnone⟩
      · rw [← Nat.succ_add_eq_add_succ] at hd
        obtain ⟨j, hj, hserved⟩ := ih hd hsome
        exact ⟨j, Nat.le_of_succ_le hj, hserved⟩

end Runs

/-- Settles O7: fairness says when the turn comes, and until it comes the ready command stays. -/
theorem fairSchedulesServeReadyCommands : Obligations.FairSchedulesServeReadyCommands := by
  refine ⟨fun run hrun k => ⟨(run k).nextMove.2, (run k).nextMove_state, hrun k⟩,
    fun moves run p k w hrun hfair hw => ?_⟩
  obtain ⟨j, hj, hturn⟩ := hfair p k
  obtain ⟨d, rfl⟩ := Nat.exists_eq_add_of_le hj
  exact hrun.eventually_served d hturn hw

end Sys2Proof.Machine

/-!
SUPPORT. The fields of the two 64-bit formats (30_encoding.md R111, R118): a word is its fields put
together, and the fields of a word put together are those put in. A mask test (R113) is a test of
each field.
-/

namespace Sys2Proof.Machine

/-! ### The fields of a command word -/

section CommandFields

variable (op : BitVec 8) (rd rs : SIdx) (a : BitVec 16) (i : BitVec 32)

@[simp] theorem opField_commandWord : opField (commandWord op rd rs a i) = op := by
  unfold opField commandWord
  repeat rw [BitVec.extractLsb'_append_eq_of_le (by decide)]
  exact BitVec.extractLsb'_eq_self

@[simp] theorem rdField_commandWord : rdField (commandWord op rd rs a i) = rd := by
  unfold rdField commandWord
  repeat rw [BitVec.extractLsb'_append_eq_of_le (by decide)]
  rw [BitVec.extractLsb'_append_eq_right]

@[simp] theorem rsField_commandWord : rsField (commandWord op rd rs a i) = rs := by
  unfold rsField commandWord
  repeat rw [BitVec.extractLsb'_append_eq_of_le (by decide)]
  rw [BitVec.extractLsb'_append_eq_right]

@[simp] theorem a16Field_commandWord : a16Field (commandWord op rd rs a i) = a := by
  unfold a16Field commandWord
  rw [BitVec.extractLsb'_append_eq_of_le (by decide), BitVec.extractLsb'_append_eq_right]

@[simp] theorem imm32Field_commandWord : imm32Field (commandWord op rd rs a i) = i :=
  BitVec.extractLsb'_append_eq_right

end CommandFields

theorem commandWord_fields (w : Word64) :
    commandWord (opField w) (rdField w) (rsField w) (a16Field w) (imm32Field w) = w := by
  unfold commandWord opField rdField rsField a16Field imm32Field
  repeat rw [BitVec.extractLsb'_append_extractLsb'_eq_extractLsb' (by decide)]
  exact BitVec.extractLsb'_eq_self

theorem word_eq_iff_fields {w v : Word64} :
    w = v ↔ opField w = opField v ∧ rdField w = rdField v ∧ rsField w = rsField v ∧
      a16Field w = a16Field v ∧ imm32Field w = imm32Field v := by
  refine ⟨by rintro rfl; simp, fun ⟨hop, hrd, hrs, ha, hi⟩ => ?_⟩
  rw [← commandWord_fields w, hop, hrd, hrs, ha, hi, commandWord_fields]

theorem commandWord_eq_iff {op op' : BitVec 8} {rd rs rd' rs' : SIdx} {a a' : BitVec 16}
    {i i' : BitVec 32} :
    commandWord op rd rs a i = commandWord op' rd' rs' a' i' ↔
      op = op' ∧ rd = rd' ∧ rs = rs' ∧ a = a' ∧ i = i' := by
  rw [word_eq_iff_fields]
  simp

/-! ### The fields of a plan token -/

section PlanFields

variable (kind : BitVec 4) (a b : BitVec 30)

@[simp] theorem kindField_planWord : kindField (planWord kind a b) = kind := by
  unfold kindField planWord
  repeat rw [BitVec.extractLsb'_append_eq_of_le (by decide)]
  exact BitVec.extractLsb'_eq_self

@[simp] theorem aField_planWord : aField (planWord kind a b) = a := by
  unfold aField planWord
  rw [BitVec.extractLsb'_append_eq_of_le (by decide), BitVec.extractLsb'_append_eq_right]

@[simp] theorem bField_planWord : bField (planWord kind a b) = b :=
  BitVec.extractLsb'_append_eq_right

end PlanFields

theorem planWord_of_kind {t : Word64} {k : BitVec 4} (h : (kindField t).toNat = k.toNat) :
    planWord k (aField t) (bField t) = t := by
  rw [← BitVec.eq_of_toNat_eq h]
  unfold planWord kindField aField bField
  repeat rw [BitVec.extractLsb'_append_extractLsb'_eq_extractLsb' (by decide)]
  exact BitVec.extractLsb'_eq_self

/-- A token is its kind and its operand bits 59:0 (30_encoding.md R119). -/
theorem token_eq_iff {t v : Word64} :
    t = v ↔ (kindField t).toNat = (kindField v).toNat ∧ t.extractLsb' 0 60 = v.extractLsb' 0 60 := by
  refine ⟨by rintro rfl; simp, fun ⟨hkind, hoperands⟩ => ?_⟩
  rw [← BitVec.extractLsb'_append_extractLsb' (w := 4) (len := 60) (x := t),
    ← BitVec.extractLsb'_append_extractLsb' (w := 4) (len := 60) (x := v), hoperands]
  exact congrArg (· ++ _) (BitVec.eq_of_toNat_eq hkind)

/-! ### The mask test -/

theorem and_eq_iff_fields {w mask pattern : Word64} :
    w &&& mask = pattern ↔
      opField w &&& opField mask = opField pattern ∧ rdField w &&& rdField mask = rdField pattern ∧
      rsField w &&& rsField mask = rsField pattern ∧
      a16Field w &&& a16Field mask = a16Field pattern ∧
      imm32Field w &&& imm32Field mask = imm32Field pattern := by
  rw [word_eq_iff_fields]
  simp only [opField, rdField, rsField, a16Field, imm32Field, BitVec.extractLsb'_and,
    BitVec.toFin_and]

/-- The mask test on a word given by its fields; the fields of a literal mask and pattern are written
out as bit ranges, which `simp` evaluates. -/
theorem commandWord_and_eq_iff {op : BitVec 8} {rd rs : SIdx} {a : BitVec 16} {i : BitVec 32}
    {mask pattern : Word64} :
    commandWord op rd rs a i &&& mask = pattern ↔
      op &&& mask.extractLsb' 56 8 = pattern.extractLsb' 56 8 ∧
      rd &&& (mask.extractLsb' 52 4).toFin = (pattern.extractLsb' 52 4).toFin ∧
      rs &&& (mask.extractLsb' 48 4).toFin = (pattern.extractLsb' 48 4).toFin ∧
      a &&& mask.extractLsb' 32 16 = pattern.extractLsb' 32 16 ∧
      i &&& mask.extractLsb' 0 32 = pattern.extractLsb' 0 32 := by
  rw [and_eq_iff_fields, opField_commandWord, rdField_commandWord, rsField_commandWord,
    a16Field_commandWord, imm32Field_commandWord]
  rfl

@[simp] theorem sidx_and_ones (r : SIdx) : r &&& 15 = r := by decide +revert

@[simp] theorem sidx_and_zero (r : SIdx) : r &&& 0 = 0 := by decide +revert

@[simp] theorem and_ones8 (x : BitVec 8) : x &&& 0xFF#8 = x := BitVec.and_allOnes

@[simp] theorem and_ones16 (x : BitVec 16) : x &&& 0xFFFF#16 = x := BitVec.and_allOnes

@[simp] theorem and_ones32 (x : BitVec 32) : x &&& 0xFFFFFFFF#32 = x := BitVec.and_allOnes

theorem and_not_eq_zero_iff {n : Nat} (x m : BitVec n) : x &&& ~~~m = 0#n ↔ x &&& m = x := by
  simp only [BitVec.eq_of_getLsbD_eq_iff, BitVec.getLsbD_and, BitVec.getLsbD_not,
    BitVec.getLsbD_zero]
  refine forall₂_congr fun k hk => ?_
  cases x.getLsbD k <;> simp [hk]

/-- The reserved bits of GEN.INIT's `imm32` are zero when it is its flag alone (30_encoding.md R112). -/
theorem and_reserved_eq_zero_iff {x : BitVec 32} :
    x &&& 0xFFFFFFFE#32 = 0#32 ↔ x = BitVec.ofNat 32 x[0].toNat := by
  rw [show 0xFFFFFFFE#32 = ~~~1#32 from rfl, and_not_eq_zero_iff,
    BitVec.and_one_eq_setWidth_ofBool_getLsbD, eq_comm,
    BitVec.getLsbD_eq_getElem (by decide)]
  cases x[0] <;> rfl

@[simp] theorem getElem_flag (b : Bool) : (BitVec.ofNat 32 b.toNat)[0] = b := by
  cases b <;> rfl

theorem matching_eq_command_iff {w mask pattern : Word64} {i j : Instr} :
    matching w mask pattern i = .command j ↔ w &&& mask = pattern ∧ i = j := by
  unfold matching
  split <;> simp [*]

theorem matching_ne_illegal {w mask pattern : Word64} {i : Instr} :
    matching w mask pattern i ≠ .illegal := by
  unfold matching
  split <;> simp

end Sys2Proof.Machine

/-!
SUPPORT. What each decoder answers, once for each answer: the instruction a word encodes, or why it
encodes none (30_encoding.md R112 to R114, R118, R119). Then the fault of a refused word, and the
statements O1, O2, O3, O8, O4.
-/

namespace Sys2Proof.Machine

/-! ### Command words -/

/-- Opcode by opcode, the only word that passes the mask test is the encoding of what its fields say:
fields under zeros of the mask are operands, the others are fixed. -/
theorem eq_encode_of_decodeCommand {w : Word64} {i : Instr} (h : decodeCommand w = .command i) :
    w = encode i := by
  obtain ⟨op, rd, rs, a, imm, rfl⟩ : ∃ op rd rs a imm, w = commandWord op rd rs a imm :=
    ⟨_, _, _, _, _, (commandWord_fields w).symm⟩
  unfold decodeCommand at h
  split at h
  case h_17 => cases h
  all_goals
    obtain ⟨htest, rfl⟩ := matching_eq_command_iff.1 h
    simpa [commandWord_and_eq_iff, and_reserved_eq_zero_iff, encode, commandWord_eq_iff] using htest

/-- The operands are read back from the fields of the encoding, whose other fields are zero, as the mask
test asks. -/
theorem decodeCommand_encode {i : Instr} (hw : i.wellFormed = true) (hp : i.isPlan = false) :
    decodeCommand (encode i) = .command i := by
  cases i
  case planEnd | planSwap | planXor | planComplete => cases hp
  all_goals
    simp_all [Instr.wellFormed, fits, encode, decodeCommand, matching_eq_command_iff,
      commandWord_and_eq_iff, and_reserved_eq_zero_iff, Nat.mod_eq_of_lt]

theorem decodeCommand_eq_command_iff {w : Word64} {i : Instr} :
    decodeCommand w = .command i ↔ i.wellFormed = true ∧ i.isPlan = false ∧ encode i = w := by
  constructor
  · intro h
    obtain ⟨hw, hp⟩ := decodeCommand_command h
    exact ⟨hw, hp, (eq_encode_of_decodeCommand h).symm⟩
  · rintro ⟨hw, hp, rfl⟩
    exact decodeCommand_encode hw hp

theorem decodeCommand_eq_illegal_iff {w : Word64} :
    decodeCommand w = .illegal ↔ (opField w).toNat ∉
      [0x00, 0x01, 0x02, 0x10, 0x11, 0x12, 0x20, 0x21, 0x22, 0x23, 0x28, 0x29, 0x30, 0x31, 0x32,
        0x33] := by
  unfold decodeCommand
  split
  case h_17 => simp_all
  all_goals simp [matching_ne_illegal, *]

theorem decodeCommand_eq_reserved_iff {w : Word64} :
    decodeCommand w = .reserved ↔
      decodeCommand w ≠ .illegal ∧ ∀ i, decodeCommand w ≠ .command i := by
  cases decodeCommand w <;> simp

/-! ### Plan tokens -/

theorem decodePlan_eq_some_iff {t : Word64} {i : Instr} :
    decodePlan t = some i ↔ i.wellFormed = true ∧ i.isPlan = true ∧ encode i = t := by
  constructor
  · intro h
    unfold decodePlan at h
    split at h
    case h_1 | h_4 =>
      split at h <;> cases h
      exact ⟨rfl, rfl, by simp [*, encode, planWord]⟩
    case h_2 hkind | h_3 hkind =>
      cases h
      simp [Instr.wellFormed, Instr.isPlan, fits_toNat, encode, planWord_of_kind, hkind]
    case h_5 => cases h
  · rintro ⟨hw, hp, rfl⟩
    cases i
    case planEnd | planComplete => rfl
    case planSwap | planXor =>
      simp_all [Instr.wellFormed, fits, encode, decodePlan, Nat.mod_eq_of_lt]
    all_goals cases hp

theorem decodePlan_eq_none_iff {t : Word64} :
    decodePlan t = none ↔ 4 ≤ (kindField t).toNat ∨
      ((kindField t).toNat = 0 ∧ t.extractLsb' 0 60 ≠ 0) ∨
      ((kindField t).toNat = 3 ∧ t.extractLsb' 0 60 ≠ 0) := by
  have hend : t = 0x0000000000000000#64 ↔ (kindField t).toNat = 0 ∧ t.extractLsb' 0 60 = 0#60 :=
    token_eq_iff
  have hcomplete : t = 0x3000000000000000#64 ↔ (kindField t).toNat = 3 ∧ t.extractLsb' 0 60 = 0#60 :=
    token_eq_iff
  unfold decodePlan
  split
  case h_1 hkind => simp [hend, hkind]
  case h_2 hkind => simp [hkind]
  case h_3 hkind => simp [hkind]
  case h_4 hkind => simp [hcomplete, hkind]
  case h_5 h0 h1 h2 h3 =>
    simp only [imp_false] at h0 h1 h2 h3
    exact iff_of_true rfl (.inl (by omega))

/-! ### The fault of a refused word -/

/-- The ERR word has its tag in the top byte and the cause in the low one (30_encoding.md R120). -/
theorem errResponse_eq (cause : BitVec 8) :
    errResponse cause = 0xFF00000000000000 ||| cause.setWidth 64 := by
  decide +revert

theorem State.raise_onlyFaulted (s : State) (t : Trap) :
    s.OnlyFaulted (s.raise t) t.code.code t.info := by
  refine ⟨rfl, ?_, fun p hp => ?_⟩
  · simp [errResponse_eq]
  · simp [hp.symm]

theorem State.rejectWord_idle {s : State} (hc : s.core = .idle) (c : FaultCode) :
    s.rejectWord c = s.raise ⟨c, 0⟩ := by
  simp [State.rejectWord, hc]

theorem fetchToken_malformed {s : State} {w : Word64} (hw : s.planIn = some w)
    (h : decodePlan w = none) : fetchToken s = .answered (s.raise ⟨.plan, s.plan.k.toNat⟩) := by
  simp only [fetchToken, hw, h]
  rfl

theorem coreTurn_of_answered {p : Nat} {s t : State} (h : fetch p s = .answered t) :
    coreTurn p s = .next t := by
  simp [coreTurn, h]

/-- A turn of the core that answers a word with a fault is the fault entry (60_exceptions.md R302). -/
theorem step_faultsWith {s u v : State} {p : Nat} {t : Trap} (hm : s.nextMove = (.core p, u))
    (hf : fetch p u = .answered (v.raise t)) : v.FaultsWith (step s) t.code.code t.info :=
  ⟨v.raise t, (step_of_nextMove hm).trans (coreTurn_of_answered hf), v.raise_onlyFaulted t⟩

/-! ### The statements -/

/-- Settles O1. -/
theorem decodeAndEncodeAgree : Obligations.DecodeAndEncodeAgree := fun _ hw =>
  ⟨decodeCommand_encode hw, fun hp => decodePlan_eq_some_iff.2 ⟨hw, hp, rfl⟩⟩

/-- Settles O2. -/
theorem eachWordHasOneMeaning : Obligations.EachWordHasOneMeaning :=
  ⟨fun _ _ => decodeCommand_eq_command_iff.1, fun _ _ => decodePlan_eq_some_iff.1⟩

/-- Settles O3: a word is reserved when it is neither illegal nor, by O1 and O2, the encoding of a
command. -/
theorem refusedWordsAreTheSpecs : Obligations.RefusedWordsAreTheSpecs := by
  refine ⟨fun w => decodeCommand_eq_illegal_iff, fun w => ?_, fun t => decodePlan_eq_none_iff⟩
  rw [decodeCommand_eq_reserved_iff, Ne, decodeCommand_eq_illegal_iff, not_not]
  simp only [Ne, decodeCommand_eq_command_iff, not_and]
  rfl

/-- Settles O8: the word is fetched, refused by its decoder, and answered with its fault. -/
theorem badWordsFault : Obligations.BadWordsFault := by
  refine ⟨fun s u p w hm hc hw => ?_, fun s u p w hm hc hw hbad => ?_⟩
  · have hfetch := fetch_ready hw
    have hreject := State.rejectWord_idle (s := u.take p w) hc
    refine ⟨fun hbad => ?_, fun hbad => ?_⟩
    · exact step_faultsWith (t := ⟨.illegal, 0⟩) hm (by simp [hfetch, fetchCommand, hbad, hreject])
    · exact step_faultsWith (t := ⟨.reserved, 0⟩) hm (by simp [hfetch, fetchCommand, hbad, hreject])
  · exact step_faultsWith (t := ⟨.plan, u.plan.k.toNat⟩) hm
      ((fetch_planning hc p).trans (fetchToken_malformed hw hbad))

/-- Settles O4: twelve closed words, evaluated. -/
theorem exampleWordsDecode : Obligations.ExampleWordsDecode := by
  unfold Obligations.ExampleWordsDecode
  decide

end Sys2Proof.Machine

/-!
SUPPORT. Packed buffers (40_packed_buffer.md): which logical element each bit of the physical form and
of the byte image holds, the laws of XOR on bit buffers, and the XOR engine bit by bit; then O39, O40,
O34, O38.
-/

namespace Sys2Proof.Machine

/-! ### Buffers element by element -/

theorem eq_of_getD_eq {α : Type} {a b : List α} (d : α) (h : a.length = b.length)
    (hd : ∀ i < b.length, a.getD i d = b.getD i d) : a = b := by
  refine List.ext_getElem h fun i ha hb => ?_
  simpa [ha, hb] using hd i hb

/-- Reading a buffer's elements in order gives the buffer. -/
theorem map_range_eq {α : Type} {l : List α} {n : Nat} {f : Nat → α} (d : α) (hn : l.length = n)
    (hf : ∀ i < n, f i = l.getD i d) : (List.range n).map f = l := by
  subst hn
  exact eq_of_getD_eq d (by simp) fun i hi => by simp [hi, hf i hi]

theorem le_ceilDiv_mul {w : Nat} (hw : 0 < w) (n : Nat) : n ≤ ceilDiv n w * w := by
  have hdiv := Nat.div_add_mod' (n + (w - 1)) w
  have hmod := Nat.mod_lt (n + (w - 1)) hw
  unfold ceilDiv
  omega

/-! ### The bits of a byte sequence (40_packed_buffer.md R152) -/

theorem bitsOfBytes_cons (x : Byte) (d : List Byte) :
    bitsOfBytes (x :: d) = (List.range 8).map x.getLsbD ++ bitsOfBytes d := rfl

@[simp] theorem length_bitsOfBytes (d : List Byte) : (bitsOfBytes d).length = 8 * d.length := by
  induction d with
  | nil => rfl
  | cons x d ih =>
    simp only [bitsOfBytes_cons, List.length_append, ih, List.length_map, List.length_range,
      List.length_cons]
    omega

theorem getD_bitsOfBytes (d : List Byte) (k : Nat) {t : Nat} (ht : t < 8) :
    (bitsOfBytes d).getD (8 * k + t) false = (d.getD k 0).getLsbD t := by
  induction d generalizing k with
  | nil => simp [bitsOfBytes]
  | cons x d ih =>
    rw [bitsOfBytes_cons]
    cases k with
    | zero =>
      rw [List.getD_append _ _ _ _ (by simpa using ht)]
      simp [ht]
    | succ k =>
      rw [List.getD_append_right _ _ _ _ (by simp; omega), List.getD_cons_succ, ← ih k]
      congr 1
      simp
      omega

theorem imageByte_bitsOfBytes (d : List Byte) (k : Nat) : imageByte (bitsOfBytes d) k = d.getD k 0 :=
  BitVec.eq_of_getLsbD_eq fun t ht => by rw [getLsbD_imageByte _ _ _ ht, getD_bitsOfBytes d k ht]

/-! ### The byte image of a bit vector (30_encoding.md R121) -/

/-- PackBits of the image of a bit vector is the bit vector. -/
theorem packBits_imageBytes (c : List Bool) : packBits (imageBytes c) c.length = c := by
  refine map_range_eq false rfl fun i hi => ?_
  have hle := le_ceilDiv_mul (w := 8) (by omega) c.length
  have hj : i / 8 < coefBytes c.length := by unfold coefBytes; omega
  have hbyte : (imageBytes c).getD (i / 8) 0 = imageByte c (i / 8) := by simp [imageBytes, hj]
  rw [imageBit, hbyte, getLsbD_imageByte _ _ _ (Nat.mod_lt i (by omega)), Nat.div_add_mod]

/-! ### The physical words -/

section Words

variable {w : Nat}

/-- Bit `t` of physical word `j` is bit `w j + t` of the vector, 0 past its end
(40_packed_buffer.md R151). -/
theorem getLsbD_packWord (c : List Bool) (j : Nat) {t : Nat} (ht : t < w) :
    (packWord w c j).getLsbD t = c.getD (w * j + t) false := by
  rw [packWord, getLsbD_ofNat_natOfBits w _ t ht]
  simp [ht]

theorem packWord_xorBits {a b : List Bool} (h : a.length = b.length) (j : Nat) :
    packWord w (xorBits a b) j = packWord w a j ^^^ packWord w b j :=
  BitVec.eq_of_getLsbD_eq fun t ht => by
    simp only [BitVec.getLsbD_xor, getLsbD_packWord _ _ ht, getD_xorBits h]

@[simp] theorem Packed.len_ofBits (c : List Bool) : (Packed.ofBits w c).len = c.length := rfl

@[simp] theorem Packed.length_words_ofBits (c : List Bool) :
    (Packed.ofBits w c).words.length = ceilDiv c.length w := by
  simp [Packed.ofBits]

/-- Physical bit `j` of a packed vector is its element `j`, and 0 past its end
(40_packed_buffer.md R150, R151). -/
theorem Packed.bit_ofBits (hw : 0 < w) (c : List Bool) (j : Nat) :
    (Packed.ofBits w c).bit j = c.getD j false := by
  by_cases hj : j / w < ceilDiv c.length w
  · have hword : (Packed.ofBits w c).words.getD (j / w) 0 = packWord w c (j / w) := by
      simp [Packed.ofBits, hj]
    rw [Packed.bit, hword, getLsbD_packWord _ _ (Nat.mod_lt j hw), Nat.div_add_mod]
  · have hlen : c.length ≤ j :=
      (le_ceilDiv_mul hw _).trans ((Nat.le_div_iff_mul_le hw).1 (Nat.not_lt.1 hj))
    rw [Packed.bit, List.getD_eq_default _ _ (by simpa using hj), List.getD_eq_default _ _ hlen,
      BitVec.ofNat_eq_ofNat, BitVec.getLsbD_zero]

theorem Packed.toBits_ofBits (hw : 0 < w) (c : List Bool) : (Packed.ofBits w c).toBits = c :=
  map_range_eq false rfl fun j _ => Packed.bit_ofBits hw c j

theorem Packed.toBytes_ofBytes (hw : 0 < w) (d : List Byte) : (Packed.ofBytes w d).toBytes = d := by
  refine map_range_eq 0 (by simp [Packed.ofBytes]) fun k _ => ?_
  simp only [Packed.ofBytes, Packed.bit_ofBits hw]
  exact imageByte_bitsOfBytes d k

/-- The padding of a packed vector is zero (40_packed_buffer.md R156). -/
theorem Packed.paddingZero_ofBits (hw : 0 < w) (c : List Bool) : (Packed.ofBits w c).PaddingZero :=
  fun j hj _ => by rw [Packed.bit_ofBits hw, List.getD_eq_default _ _ hj]

/-! ### The XOR engine (40_packed_buffer.md R155) -/

theorem Packed.xorInto_eq_some_iff {a b r : Packed w} :
    a.xorInto b = some r ↔ a.words.length = b.words.length ∧
      r = ⟨a.len, List.zipWith (· ^^^ ·) a.words b.words⟩ := by
  unfold Packed.xorInto
  split
  · next h => simp [h, eq_comm]
  · next h => simp [h]

/-- Each physical bit of the result is the XOR of the two physical bits, padding included. -/
theorem Packed.bit_xorInto {a b r : Packed w} (h : a.xorInto b = some r) (j : Nat) :
    r.bit j = Bool.xor (a.bit j) (b.bit j) := by
  obtain ⟨hlen, rfl⟩ := Packed.xorInto_eq_some_iff.1 h
  simp only [Packed.bit, List.getD_eq_getElem?_getD, List.getElem?_zipWith, ← BitVec.getLsbD_xor]
  by_cases hj : j / w < a.words.length
  · simp [hj, hlen ▸ hj]
  · simp [Nat.not_lt.1 hj, hlen ▸ Nat.not_lt.1 hj]

theorem Packed.PaddingZero.xorInto {a b r : Packed w} (ha : a.PaddingZero) (hb : b.PaddingZero)
    (hl : a.len = b.len) (h : a.xorInto b = some r) : r.len = a.len ∧ r.PaddingZero := by
  have hbit := Packed.bit_xorInto h
  obtain ⟨hwords, rfl⟩ := Packed.xorInto_eq_some_iff.1 h
  refine ⟨rfl, fun j hj hjw => ?_⟩
  have hjw : j < a.words.length * w := by simpa [← hwords] using hjw
  rw [hbit, ha j hj hjw, hb j (hl ▸ hj) (hwords ▸ hjw), Bool.xor_false]

theorem Packed.xorInto_ofBits {a b : List Bool} (h : a.length = b.length) :
    (Packed.ofBits w a).xorInto (Packed.ofBits w b) = some (Packed.ofBits w (xorBits a b)) := by
  refine Packed.xorInto_eq_some_iff.2 ⟨by simp [h], ?_⟩
  simp [Packed.ofBits, h, List.zipWith_map, packWord_xorBits h]

end Words

/-- The bits of the XOR of two byte buffers are the XOR of their bits. -/
theorem bitsOfBytes_xorBytes {a b : List Byte} (h : a.length = b.length) :
    bitsOfBytes (xorBytes a b) = xorBits (bitsOfBytes a) (bitsOfBytes b) := by
  induction a generalizing b with
  | nil => rfl
  | cons x a ih =>
    obtain _ | ⟨y, b⟩ := b
    · cases h
    · simp only [xorBytes_cons, bitsOfBytes_cons, ih (Nat.succ.inj h), xorBits]
      rw [List.zipWith_append (by simp)]
      simp [List.zipWith_map]

/-! ### The laws of XOR on bit buffers (40_packed_buffer.md R159) -/

theorem xorBits_comm (a b : List Bool) : xorBits a b = xorBits b a :=
  List.zipWith_comm_of_comm Bool.xor_comm

theorem xorBits_assoc {a b c : List Bool} (hab : a.length = b.length) (hbc : b.length = c.length) :
    xorBits (xorBits a b) c = xorBits a (xorBits b c) := by
  refine eq_of_getD_eq false (by simp [hab, hbc]) fun i _ => ?_
  rw [getD_xorBits (by simp [hab, hbc]), getD_xorBits hab, getD_xorBits (by simp [hab, hbc]),
    getD_xorBits hbc, Bool.xor_assoc]

theorem xorBits_zero (a : List Bool) : xorBits a (List.replicate a.length false) = a :=
  eq_of_getD_eq false (by simp) fun i hi => by
    rw [getD_xorBits (by simp)]
    simp [hi]

theorem xorBits_self (a : List Bool) : xorBits a a = List.replicate a.length false :=
  eq_of_getD_eq false (by simp) fun i hi => by
    rw [getD_xorBits rfl, Bool.xor_self]
    simp [List.length_replicate ▸ hi]

/-! ### The statements -/

/-- Settles O39. -/
theorem unpackPackIsIdentity : Obligations.UnpackPackIsIdentity := fun _ hw _ =>
  ⟨Packed.toBits_ofBits (by omega), Packed.toBytes_ofBytes (by omega)⟩

/-- Settles O40: the bytes' engine is the bits' engine on the bits of the bytes. -/
theorem packedXorRefinesTheElementwiseXor : Obligations.PackedXorRefinesTheElementwiseXor := by
  refine fun w hw _ => ⟨fun a b => Packed.xorInto_ofBits, fun a b hab => ?_,
    Packed.paddingZero_ofBits (by omega), fun a b r => Packed.PaddingZero.xorInto⟩
  rw [Packed.ofBytes, Packed.ofBytes, Packed.ofBytes, bitsOfBytes_xorBytes hab]
  exact Packed.xorInto_ofBits (by simp [hab])

/-- Settles O34: the image is cut where its coefficient bytes end. -/
theorem imageRoundTrip : Obligations.ImageRoundTrip := by
  intro x rest
  have hcoef : (imageBytes x.coef).length = coefBytes x.n := length_imageBytes x.coef
  rw [sliceOfImage, Slice.image, List.append_assoc, List.take_left' hcoef, List.drop_left' hcoef,
    List.take_left' (show x.data.length = x.s from rfl)]
  exact congrArg (Slice.mk · x.data) (packBits_imageBytes x.coef)

/-- Settles O38. -/
theorem xorIsAdditionOverGF2 : Obligations.XorIsAdditionOverGF2 :=
  ⟨fun a b _ hab hbc => ⟨xorBits_comm a b, xorBits_assoc hab hbc, xorBits_zero a, xorBits_self a⟩,
    fun a b c _ _ => ⟨xorBytes_comm a b, xorBytes_assoc a b c, xorBytes_zero rfl, xorBytes_self a⟩⟩

end Sys2Proof.Machine

/-!
SUPPORT. The slice commands (41_slice.md): how a command of any kind traps and with which fault its
first failing check is, the states the slice commands leave and what these leave alone, the elements
of the slices made and the bytes pushed; then O24, O30, O32, O33, O31.
-/

namespace Sys2Proof.Machine

/-! ### Traps (60_exceptions.md R302, R307) -/

section Traps

variable {s : State} {i : Instr}

/-- CSRR of an unmapped number runs in the frame of every command (45_control.md R292). -/
theorem execCsrr_unmapped {c : Nat} (hv : s.csr c = none) :
    execCsrr c s = runCommand s (check (.csrr c) s) (.next s) := by
  simp only [execCsrr, hv, check]

/-- A command whose check fails is its fault entry. -/
theorem exec_of_check_eq_some {u : Trap} (hc : s.core = .idle) (hk : check i s = some u) :
    exec i s = .next (s.raise u) := by
  have hraise (e : Host.Outcome State Fault Refusal) :
      runCommand s (check i s) e = .next (s.raise u) := by rw [hk, runCommand_trap hc]
  cases i with
  | nop | sync | planEnd | planSwap | planXor | planComplete => cases hk
  | csrr c =>
    have hv : s.csr c = none := by
      by_contra hv
      cases hk.symm.trans (checkCsrr_eq_none.2 (Option.isSome_iff_ne_none.2 hv))
    exact (execCsrr_unmapped hv).trans (hraise _)
  | genNext rd => exact (execGenNext_start (by simp [hc])).trans (hraise _)
  | _ => exact hraise _

theorem State.faultsWith_of_check {u : Trap} (hc : s.core = .idle) (hk : check i s = some u) :
    s.FaultsWith (exec i s) u.code.code u.info :=
  ⟨s.raise u, exec_of_check_eq_some hc hk, s.raise_onlyFaulted u⟩

end Traps

/-! ### The first failing check of a list (00_scope.md R12) -/

theorem firstFailing_append (l m : List (Bool × Trap)) :
    firstFailing (l ++ m) = (firstFailing l).or (firstFailing m) := by
  induction l with
  | nil => simp
  | cons e l ih =>
    obtain ⟨b, t⟩ := e
    cases b <;> simp [firstFailing_cons, ih]

/-- Registers checked in ascending order fault for the lowest that fails. -/
theorem firstFailing_map_lowest {l : List SIdx} (hl : l.Pairwise (· < ·)) {failing : SIdx → Bool}
    {trap : SIdx → Trap} {k : SIdx} (hk : k ∈ l) (hfail : failing k = true)
    (hpass : ∀ j < k, j ∈ l → failing j = false) :
    firstFailing (l.map fun j => (failing j, trap j)) = some (trap k) := by
  induction l with
  | nil => cases hk
  | cons j l ih =>
    obtain ⟨hj, hl⟩ := List.pairwise_cons.1 hl
    rw [List.map_cons, firstFailing_cons]
    obtain rfl | hk := List.mem_cons.1 hk
    · rw [if_pos hfail]
    · rw [if_neg (by simp [hpass j (hj k hk) List.mem_cons_self])]
      exact ih hl hk fun m hm hml => hpass m hm (List.mem_cons_of_mem j hml)

theorem firstFailing_map_eq_none {l : List SIdx} {failing : SIdx → Bool} {trap : SIdx → Trap}
    (hpass : ∀ j ∈ l, failing j = false) :
    firstFailing (l.map fun j => (failing j, trap j)) = none := by
  simpa [firstFailing_eq_none] using hpass

/-! ### MIX's registers (30_encoding.md R116) -/

theorem maskRegs_ascending (mask : BitVec 16) : (maskRegs mask).Pairwise (· < ·) :=
  (List.pairwise_lt_finRange 16).filter _

theorem mask_ne_zero {mask : BitVec 16} {k : SIdx} (hk : mask.getLsbD k.val = true) : mask ≠ 0 := by
  rintro rfl
  simp at hk

/-- The lowest selected register is the first. -/
theorem maskRegs_eq_cons {mask : BitVec 16} {f : SIdx} (hf : mask.getLsbD f.val = true)
    (hmin : ∀ j : SIdx, mask.getLsbD j.val = true → f ≤ j) : ∃ ks, maskRegs mask = f :: ks := by
  have hmem := (mem_maskRegs mask f).2 hf
  have hasc := maskRegs_ascending mask
  have hle (j) (hj : j ∈ maskRegs mask) := hmin j ((mem_maskRegs mask j).1 hj)
  cases hl : maskRegs mask with
  | nil => simp [hl] at hmem
  | cons k ks =>
    rw [hl] at hmem hasc hle
    obtain rfl | hfk := List.mem_cons.1 hmem
    · exact ⟨ks, rfl⟩
    · have hlt := (List.pairwise_cons.1 hasc).1 f hfk
      exact absurd (hle k List.mem_cons_self) (not_le.2 hlt)

/-- Shapes are compared with the lowest selected register's. -/
theorem State.misshapen_eq (s : State) {mask : BitVec 16} {f : SIdx} (hf : mask.getLsbD f.val = true)
    (hmin : ∀ j : SIdx, mask.getLsbD j.val = true → f ≤ j) (k : SIdx) :
    s.misshapen mask k = !(s.reg k).slice.sameShape (s.reg f).slice := by
  obtain ⟨ks, hks⟩ := maskRegs_eq_cons hf hmin
  simp [State.misshapen, State.maskSlices, hks]

/-! ### Which check of a slice command, SPLIT or MIX fails first -/

section Checks

variable {s : State} {rd rs : SIdx} {mask : BitVec 16}

theorem checkSlcCreate_badConfig {sz n : Nat} (h : s.params.smax < sz ∨ s.params.nmax < n) :
    checkSlcCreate sz n s = some ⟨.badConfig, 0⟩ := by
  by_cases hsz : s.params.smax < sz
  · simp [checkSlcCreate, firstFailing_cons, hsz]
  · simp [checkSlcCreate, firstFailing_cons, h.resolve_left hsz]

theorem checkSlcClone_unwritten (h : (s.reg rs).valid = false) :
    checkSlcClone rs s = some ⟨.sregUnwritten, rs.val⟩ := by
  simp [checkSlcClone, firstFailing_cons, h]

theorem checkSlcXor_destination (h : (s.reg rd).valid = false) :
    checkSlcXor rd rs s = some ⟨.sregUnwritten, rd.val⟩ := by
  simp [checkSlcXor, firstFailing_cons, h]

theorem checkSlcXor_source (hd : (s.reg rd).valid = true) (h : (s.reg rs).valid = false) :
    checkSlcXor rd rs s = some ⟨.sregUnwritten, rs.val⟩ := by
  simp [checkSlcXor, firstFailing_cons, hd, h]

theorem checkSlcXor_shape (hd : (s.reg rd).valid = true) (hs : (s.reg rs).valid = true)
    (h : (s.reg rd).slice.n ≠ (s.reg rs).slice.n ∨ (s.reg rd).slice.s ≠ (s.reg rs).slice.s) :
    checkSlcXor rd rs s = some ⟨.shape, 0⟩ := by
  have hshape : (s.reg rd).slice.sameShape (s.reg rs).slice = false := by
    rw [Bool.eq_false_iff, Ne, Slice.sameShape_iff]
    omega
  simp [checkSlcXor, firstFailing_cons, hd, hs, hshape]

theorem checkSplit_uninit {j : Nat} (h : s.gen.ready = false) :
    checkSplit j s = some ⟨.genUninit, 0⟩ := by
  simp [checkSplit, firstFailing_cons, h]

theorem checkSplit_index {j : Nat} (hr : s.gen.ready = true) (h : s.gen.n.toNat ≤ j) :
    checkSplit j s = some ⟨.index, j⟩ := by
  simp [checkSplit, firstFailing_cons, hr, h]

theorem checkMix_empty : checkMix 0 s = some ⟨.emptyMix, 0⟩ := rfl

/-- MIX of a mask that selects something: first every register's validity, then every shape. -/
theorem checkMix_eq (hm : mask ≠ 0) :
    checkMix mask s =
      (firstFailing ((maskRegs mask).map fun k => (!(s.reg k).valid, ⟨.sregUnwritten, k.val⟩))).or
      (firstFailing ((maskRegs mask).map fun k => (s.misshapen mask k, ⟨.shape, k.val⟩))) := by
  rw [checkMix, List.cons_append, firstFailing_cons, if_neg (by simpa using hm), firstFailing_append]

theorem checkMix_unwritten {k : SIdx} (hk : mask.getLsbD k.val = true) (hv : (s.reg k).valid = false)
    (hlow : ∀ j, j < k → mask.getLsbD j.val = true → (s.reg j).valid = true) :
    checkMix mask s = some ⟨.sregUnwritten, k.val⟩ := by
  rw [checkMix_eq (mask_ne_zero hk),
    firstFailing_map_lowest (maskRegs_ascending mask) ((mem_maskRegs mask k).2 hk) (by simp [hv])
      fun j hj hjm => by simp [hlow j hj ((mem_maskRegs mask j).1 hjm)],
    Option.some_or]

theorem checkMix_shape {f k : SIdx}
    (hvalid : ∀ j : SIdx, mask.getLsbD j.val = true → (s.reg j).valid = true)
    (hf : mask.getLsbD f.val = true) (hmin : ∀ j : SIdx, mask.getLsbD j.val = true → f ≤ j)
    (hk : mask.getLsbD k.val = true) (hshape : (s.reg k).slice.sameShape (s.reg f).slice = false)
    (hlow : ∀ j, j < k → mask.getLsbD j.val = true →
      (s.reg j).slice.sameShape (s.reg f).slice = true) :
    checkMix mask s = some ⟨.shape, k.val⟩ := by
  have hmis := s.misshapen_eq hf hmin
  rw [checkMix_eq (mask_ne_zero hk),
    firstFailing_map_eq_none fun j hj => by simp [hvalid j ((mem_maskRegs mask j).1 hj)],
    firstFailing_map_lowest (maskRegs_ascending mask) ((mem_maskRegs mask k).2 hk)
      (by simp [hmis, hshape])
      fun j hj hjm => by simp [hmis, hlow j hj ((mem_maskRegs mask j).1 hjm)],
    Option.none_or]

end Checks

/-! ### The states the slice commands leave -/

section Effects

variable {s : State} {rd rs : SIdx}

theorem exec_slcCreate {sz n : Nat} (hc : s.core = .idle) (hsz : sz ≤ s.params.smax)
    (hn : n ≤ s.params.nmax) (hin : imageLength n sz ≤ s.here.dinq.length) :
    exec (.slcCreate rd sz n) s = .next ((s.dinDrop (imageLength n sz)).writeReg rd
      (sliceOfImage n sz (s.here.dinq.take (imageLength n sz)))) := by
  rw [exec, execSlcCreate, checkSlcCreate_eq_none.2 ⟨hsz, hn⟩, runCommand_effect hc,
    withInput_ready hin]

theorem exec_slcClone (hc : s.core = .idle) (hs : (s.reg rs).valid = true) :
    exec (.slcClone rd rs) s = .next (s.writeReg rd (s.reg rs).slice) := by
  rw [exec, execSlcClone, checkSlcClone_eq_none.2 hs, runCommand_effect hc]

theorem exec_slcXor (hc : s.core = .idle) (hd : (s.reg rd).valid = true)
    (hs : (s.reg rs).valid = true)
    (hshape : (s.reg rd).slice.sameShape (s.reg rs).slice = true) :
    exec (.slcXor rd rs) s = .next (s.writeReg rd ((s.reg rd).slice.xor (s.reg rs).slice)) := by
  rw [exec, execSlcXor, checkSlcXor_eq_none.2 ⟨hd, hs, hshape⟩, runCommand_effect hc]

/-- SLC.OUT has the check of SLC.CLONE: its source is written (41_slice.md R173). -/
theorem exec_slcOut (hc : s.core = .idle) (hs : (s.reg rs).valid = true) :
    exec (.slcOut rs) s = .next (s.doutPush (s.reg rs).slice.image) := by
  rw [exec, execSlcOut, show checkSlcOut rs s = none from checkSlcClone_eq_none.2 hs,
    runCommand_effect hc]

end Effects

/-! ### What a register write and a queue operation leave alone -/

@[simp] theorem State.reg_writeReg_self (s : State) (k : SIdx) (x : Slice) :
    (s.writeReg k x).reg k = ⟨true, x⟩ := by
  rw [State.reg_writeReg, if_pos rfl]

theorem State.sameRegsBut_writeReg (s : State) (k : SIdx) (x : Slice) :
    s.SameRegsBut (s.writeReg k x) k := fun j hj => by
  rw [State.reg_writeReg, if_neg hj.symm]

theorem State.onlyPortNow_setPort (s : State) (q : Port) :
    s.OnlyPortNow (s.setPort s.cmdPort q) q :=
  ⟨by simp, fun p hp => by simp [hp.symm]⟩

/-! ### The slice of a byte image, element by element (41_slice.md R170, 20_memory.md R83) -/

theorem getD_take_of_lt {α : Type} (l : List α) {i k : Nat} (d : α) (h : i < k) :
    (l.take k).getD i d = l.getD i d := by
  simp [List.getD_eq_getElem?_getD, h]

/-- The bytes past the image are not looked at. -/
theorem sliceOfImage_take (n sz : Nat) (bytes : List Byte) :
    sliceOfImage n sz (bytes.take (imageLength n sz)) = sliceOfImage n sz bytes := by
  simp [sliceOfImage, imageLength, List.take_take, List.drop_take]

theorem getD_coef_sliceOfImage (sz : Nat) (bytes : List Byte) {n i : Nat} (h : i < n) :
    (sliceOfImage n sz bytes).coef.getD i false = (bytes.getD (i / 8) 0).getLsbD (i % 8) := by
  have hle := le_ceilDiv_mul (w := 8) (by omega) n
  have hbyte : i / 8 < coefBytes n := by unfold coefBytes; omega
  rw [sliceOfImage, getD_packBits _ _ _ h, imageBit, getD_take_of_lt _ _ hbyte]

theorem getD_data_sliceOfImage (n : Nat) (bytes : List Byte) {sz k : Nat} (h : k < sz) :
    (sliceOfImage n sz bytes).data.getD k 0 = bytes.getD (coefBytes n + k) 0 := by
  rw [sliceOfImage, getD_take_of_lt _ _ h]
  simp

/-! ### The byte image of a slice, byte by byte (41_slice.md R173, 30_encoding.md R121) -/

theorem getD_image_coef (x : Slice) {j : Nat} (h : j < coefBytes x.n) :
    x.image.getD j 0 = imageByte x.coef j := by
  have hj : j < coefBytes x.coef.length := h
  rw [Slice.image, List.getD_append _ _ _ _ (by simpa using hj)]
  simp [imageBytes, hj]

theorem getD_image_data (x : Slice) (k : Nat) :
    x.image.getD (coefBytes x.n + k) 0 = x.data.getD k 0 := by
  rw [Slice.image, List.getD_append_right _ _ _ _ (by simp [Slice.n])]
  simp [Slice.n]

/-! ### XOR of slices, element by element (40_packed_buffer.md R155) -/

theorem getD_xorBytes {a b : List Byte} {k : Nat} (h : a.length = b.length) :
    (xorBytes a b).getD k 0 = a.getD k 0 ^^^ b.getD k 0 := by
  simp only [List.getD_eq_getElem?_getD, xorBytes, List.getElem?_zipWith]
  by_cases hk : k < a.length
  · simp [hk, h ▸ hk]
  · simp [Nat.not_lt.1 hk, h ▸ Nat.not_lt.1 hk]

/-- A slice XORed with itself is the zero slice of its shape (40_packed_buffer.md R157). -/
theorem Slice.xor_self (x : Slice) :
    x.xor x = ⟨List.replicate x.n false, List.replicate x.s 0⟩ := by
  rw [Slice.xor, xorBits_self, xorBytes_self]
  rfl

/-! ### The statements -/

/-- Settles O24: each clause is the first failing check of its command. -/
theorem sliceCommandsTrapInOrder : Obligations.SliceCommandsTrapInOrder := by
  intro s rd rs hc
  have trap {i : Instr} {u : Trap} (hk : check i s = some u) := State.faultsWith_of_check hc hk
  exact ⟨fun sz n h => trap (i := .slcCreate rd sz n) (checkSlcCreate_badConfig h),
    fun h => ⟨trap (i := .slcClone rd rs) (checkSlcClone_unwritten h),
      trap (i := .slcOut rs) (checkSlcClone_unwritten h)⟩,
    fun h => trap (i := .slcXor rd rs) (checkSlcXor_destination h),
    fun hd h => trap (i := .slcXor rd rs) (checkSlcXor_source hd h),
    fun hd hs h => trap (i := .slcXor rd rs) (checkSlcXor_shape hd hs h),
    fun j h => trap (i := .split rd j) (checkSplit_uninit h),
    fun j hr h => trap (i := .split rd j) (checkSplit_index hr h),
    trap (i := .mix rd 0) checkMix_empty,
    fun mask k hk hv hlow => trap (i := .mix rd mask) (checkMix_unwritten hk hv hlow),
    fun mask f k hvalid hf hmin hk hshape hlow =>
      trap (i := .mix rd mask) (checkMix_shape hvalid hf hmin hk hshape hlow)⟩

/-- Settles O30: the bytes popped are the image, read from the head of the queue. -/
theorem slcCreateWritesTheImage : Obligations.SlcCreateWritesTheImage := by
  intro s rd sz n hc hsz hn hin
  have hin : imageLength n sz ≤ s.here.dinq.length := hin
  obtain ⟨hlen, hsize⟩ :=
    sliceOfImage_shape (n := n) (sz := sz) (List.length_take_of_le hin)
  refine ⟨_, exec_slcCreate hc hsz hn hin, ?_⟩
  rw [State.reg_writeReg_self]
  refine ⟨rfl, hlen, hsize, fun i hi => ?_, fun k hk => ?_,
    s.onlyPortNow_setPort _, (s.dinDrop _).sameRegsBut_writeReg rd _, fun _ => rfl, rfl⟩
  · rw [sliceOfImage_take, getD_coef_sliceOfImage sz _ hi]
  · rw [sliceOfImage_take, getD_data_sliceOfImage n _ hk]
    rfl

/-- Settles O32: both sources are read before the write, so `rd = rs` is no exception. -/
theorem slcXorCombines : Obligations.SlcXorCombines := by
  intro s rd rs hc hd hs hn hsz
  refine ⟨_, exec_slcXor hc hd hs ((Slice.sameShape_iff _ _).2 ⟨hn, hsz⟩), ?_⟩
  rw [State.reg_writeReg_self]
  refine ⟨rfl, ?_, ?_, fun i _ => getD_xorBits hn, fun k _ => getD_xorBytes hsz, ?_,
    s.sameRegsBut_writeReg rd _, fun _ => rfl, rfl⟩
  · rw [Slice.n_xor, ← hn, Nat.min_self]
  · rw [Slice.s_xor, ← hsz, Nat.min_self]
  · rintro rfl
    exact Slice.xor_self _

/-- Settles O33: the padding bits lie past the end of the vector, which reads 0 there. -/
theorem slcOutPushesTheImage : Obligations.SlcOutPushesTheImage := by
  intro s rs hc hs
  refine ⟨_, (s.reg rs).slice.image, exec_slcOut hc hs, s.onlyPortNow_setPort _, length_image _,
    fun j hj b hb => ?_, fun k _ => getD_image_data _ k, fun _ => rfl, rfl⟩
  rw [getD_image_coef _ hj, getLsbD_imageByte _ _ _ hb]

/-- Settles O31: the copy is whole, its valid bit with it. -/
theorem slcCloneCopies : Obligations.SlcCloneCopies := by
  intro s rd rs hc hs
  refine ⟨_, exec_slcClone hc hs, ?_, s.sameRegsBut_writeReg rd _, fun _ => rfl, rfl⟩
  rw [State.reg_writeReg_self, ← hs]

end Sys2Proof.Machine

/-!
SUPPORT. The splitter and the mixer (42_split_mix.md): XOR of slices commutes and associates, a
reading of slices that takes XOR to an operation takes a mix to the fold of that operation, and the
states SPLIT and MIX leave; then O37, O36, O35.
-/

namespace Sys2Proof.Machine

/-! ### XOR of slices as addition -/

theorem Slice.xor_comm (x y : Slice) : x.xor y = y.xor x := by
  rw [Slice.xor, xorBits_comm, xorBytes_comm]
  rfl

/-- Grouping does not matter even for slices of different shapes, which are cut to the shortest. -/
theorem Slice.xor_assoc (x y z : Slice) : (x.xor y).xor z = x.xor (y.xor z) := by
  have hcoef : xorBits (xorBits x.coef y.coef) z.coef = xorBits x.coef (xorBits y.coef z.coef) :=
    List.ext_getElem (by simp [Nat.min_assoc]) (by simp [xorBits])
  simp only [Slice.xor, hcoef, xorBytes_assoc]

theorem Slice.xor_zero (x : Slice) : x.xor ⟨List.replicate x.n false, List.replicate x.s 0⟩ = x :=
  congrArg₂ Slice.mk (xorBits_zero x.coef) (xorBytes_zero rfl)

/-- A slice added twice to another of its shape is gone (40_packed_buffer.md R159). -/
theorem Slice.xor_xor_cancel {x y : Slice} (h : y.n = x.n ∧ y.s = x.s) : (x.xor x).xor y = y := by
  obtain ⟨hn, hs⟩ := h
  rw [Slice.xor_self, Slice.xor_comm, ← hn, ← hs, Slice.xor_zero]

theorem Slice.shape_xor {n sz : Nat} (x y : Slice) (hx : x.n = n ∧ x.s = sz)
    (hy : y.n = n ∧ y.s = sz) : (x.xor y).n = n ∧ (x.xor y).s = sz := by
  simp [hx, hy]

/-! ### Order, grouping and pairs in a mix (42_split_mix.md R204) -/

theorem mixSlices_perm {xs ys : List Slice} (h : xs.Perm ys) : mixSlices xs = mixSlices ys := by
  have hright : RightCommutative Slice.xor := ⟨fun x y z => by
    rw [Slice.xor_assoc, Slice.xor_comm y, ← Slice.xor_assoc]⟩
  induction h with
  | nil => rfl
  | cons x h _ => rw [mixSlices_cons, mixSlices_cons, h.foldl_eq]
  | swap x y l => simp [Slice.xor_comm]
  | trans _ _ ih₁ ih₂ => exact ih₁.trans ih₂

/-- Adding a sequence one by one is adding its mix. -/
theorem foldl_xor_cons (a y : Slice) (ys : List Slice) :
    (y :: ys).foldl Slice.xor a = a.xor (ys.foldl Slice.xor y) :=
  have : Std.Associative Slice.xor := ⟨Slice.xor_assoc⟩
  List.foldl_assoc

theorem mixSlices_append {xs ys : List Slice} {a b : Slice} (ha : mixSlices xs = some a)
    (hb : mixSlices ys = some b) : mixSlices (xs ++ ys) = mixSlices [a, b] := by
  cases xs with
  | nil => cases ha
  | cons x xs =>
    cases ys with
    | nil => cases hb
    | cons y ys =>
      cases ha
      cases hb
      rw [List.cons_append, mixSlices_cons, List.foldl_append, foldl_xor_cons]
      rfl

theorem mixSlices_pair {x : Slice} {ys : List Slice} (hne : ys ≠ [])
    (hys : ∀ y ∈ ys, y.n = x.n ∧ y.s = x.s) : mixSlices (x :: x :: ys) = mixSlices ys := by
  cases ys with
  | nil => exact absurd rfl hne
  | cons y ys =>
    rw [mixSlices_cons, mixSlices_cons, List.foldl_cons, List.foldl_cons,
      Slice.xor_xor_cancel (hys y List.mem_cons_self)]

/-! ### What is read of a mix -/

/-- On slices of one shape, `read` takes XOR to `op`. -/
def TakesXorTo {α : Type} (n sz : Nat) (read : Slice → α) (op : α → α → α) : Prop :=
  ∀ x y : Slice, x.n = n ∧ x.s = sz → y.n = n ∧ y.s = sz → read (x.xor y) = op (read x) (read y)

theorem takesXorTo_coef (n sz i : Nat) : TakesXorTo n sz (·.coef.getD i false) Bool.xor :=
  fun _ _ ⟨hx, _⟩ ⟨hy, _⟩ => getD_xorBits (hx.trans hy.symm)

theorem takesXorTo_data (n sz k : Nat) : TakesXorTo n sz (·.data.getD k 0) (· ^^^ ·) :=
  fun _ _ ⟨_, hx⟩ ⟨_, hy⟩ => getD_xorBytes (hx.trans hy.symm)

theorem takesXorTo_dataBit (n sz k b : Nat) :
    TakesXorTo n sz (fun x => (x.data.getD k 0).getLsbD b) Bool.xor := fun x y hx hy => by
  simp only [takesXorTo_data n sz k x y hx hy, BitVec.getLsbD_xor]

section Read

variable {n sz : Nat} {xs : List Slice} {m : Slice}

theorem mixSlices_shape (hxs : ∀ x ∈ xs, x.n = n ∧ x.s = sz) (hm : mixSlices xs = some m) :
    m.n = n ∧ m.s = sz :=
  mixSlices_of_xor Slice.shape_xor hxs hm

variable {α : Type} {op : α → α → α} {read : Slice → α}

/-- A reading of slices that takes XOR to an operation, on the slices XORed in one by one. -/
theorem read_foldl_xor (hop : TakesXorTo n sz read op) {x : Slice} (hx : x.n = n ∧ x.s = sz)
    (hxs : ∀ y ∈ xs, y.n = n ∧ y.s = sz) :
    read (xs.foldl Slice.xor x) = xs.foldl (fun acc y => op acc (read y)) (read x) := by
  induction xs generalizing x with
  | nil => rfl
  | cons y ys ih =>
    obtain ⟨hy, hys⟩ := List.forall_mem_cons.1 hxs
    rw [List.foldl_cons, List.foldl_cons, ih (Slice.shape_xor x y hx hy) hys, hop x y hx hy]

/-- Such a reading of a mix is the operation's fold over the slices mixed. -/
theorem read_mixSlices (hop : TakesXorTo n sz read op) {e : α} (he : ∀ a, op e a = a)
    (hxs : ∀ x ∈ xs, x.n = n ∧ x.s = sz) (hm : mixSlices xs = some m) :
    read m = xs.foldl (fun acc x => op acc (read x)) e := by
  cases xs with
  | nil => cases hm
  | cons x ys =>
    cases hm
    obtain ⟨hx, hys⟩ := List.forall_mem_cons.1 hxs
    rw [List.foldl_cons, he, read_foldl_xor hop hx hys]

/-- The XOR of bits is the parity of the number of ones. -/
theorem foldl_xor_eq_parity {β : Type} (bit : β → Bool) (l : List β) (acc : Bool) :
    l.foldl (fun a x => Bool.xor a (bit x)) acc =
      Bool.xor acc (decide (l.countP bit % 2 = 1)) := by
  induction l generalizing acc with
  | nil => simp
  | cons x l ih =>
    rw [List.foldl_cons, ih, List.countP_cons, Bool.xor_assoc]
    cases bit x
    · simp
    · obtain h | h := Nat.mod_two_eq_zero_or_one (l.countP bit) <;> simp [Nat.add_mod, h]

/-- A bit read of a mix is the parity of that bit over the slices mixed (42_split_mix.md R202). -/
theorem bit_mixSlices {bit : Slice → Bool} (hop : TakesXorTo n sz bit Bool.xor)
    (hxs : ∀ x ∈ xs, x.n = n ∧ x.s = sz) (hm : mixSlices xs = some m) :
    bit m = decide (xs.countP bit % 2 = 1) := by
  rw [read_mixSlices hop Bool.false_xor hxs hm, foldl_xor_eq_parity, Bool.false_xor]

theorem getD_coef_mixSlices (hxs : ∀ x ∈ xs, x.n = n ∧ x.s = sz) (hm : mixSlices xs = some m)
    (i : Nat) : m.coef.getD i false = decide (xs.countP (·.coef.getD i false) % 2 = 1) :=
  bit_mixSlices (takesXorTo_coef n sz i) hxs hm

theorem getD_data_mixSlices (hxs : ∀ x ∈ xs, x.n = n ∧ x.s = sz) (hm : mixSlices xs = some m)
    (k : Nat) : m.data.getD k 0 = xs.foldl (fun acc x => acc ^^^ x.data.getD k 0) 0 :=
  read_mixSlices (takesXorTo_data n sz k) (fun _ => BitVec.zero_xor) hxs hm

theorem getLsbD_data_mixSlices (hxs : ∀ x ∈ xs, x.n = n ∧ x.s = sz) (hm : mixSlices xs = some m)
    (k b : Nat) : (m.data.getD k 0).getLsbD b =
      decide (xs.countP (fun x => (x.data.getD k 0).getLsbD b) % 2 = 1) :=
  bit_mixSlices (takesXorTo_dataBit n sz k b) hxs hm

end Read

/-! ### SPLIT and MIX -/

section Commands

variable {s : State} {rd : SIdx} {mask : BitVec 16} {n sz : Nat}

theorem exec_split {i : Nat} {x : Slice} (hc : s.core = .idle) (hr : s.gen.ready = true)
    (hi : i < s.gen.n.toNat) (hx : s.sys i = some x) :
    exec (.split rd i) s = .next (s.writeReg rd x) := by
  rw [exec, execSplit, checkSplit_eq_none.2 ⟨hr, hi⟩, runCommand_effect hc]
  simp only [hx]

/-- Each byte of a segment is the one at its address (42_split_mix.md R200). -/
theorem State.getD_segmentOf (h : s.PayloadThere) (i : Nat) {k : Nat} (hk : k < s.gen.s.toNat) :
    some ((segmentOf s.payload s.gen.s.toNat i).getD k 0) = s.segByte i k := by
  have hall := (allSome_eq_some _ _).1 (State.seg_eq h i)
  have hbyte := congrArg (·[k]?) hall
  simpa [hk] using hbyte.symm

/-- MIX of written registers of one shape passes its checks. -/
theorem checkMix_of_shape (hm : mask ≠ 0)
    (hregs : ∀ k : SIdx, mask.getLsbD k.val = true →
      (s.reg k).valid = true ∧ (s.reg k).slice.n = n ∧ (s.reg k).slice.s = sz) :
    checkMix mask s = none := by
  have hregs (k) (hk : k ∈ maskRegs mask) := hregs k ((mem_maskRegs mask k).1 hk)
  have hshaped : ∀ k ∈ maskRegs mask, s.misshapen mask k = false := by
    intro k hk
    unfold State.misshapen State.maskSlices
    cases hl : maskRegs mask with
    | nil => rfl
    | cons f ks =>
      have hf := hregs f (by simp [hl])
      simp [Slice.sameShape, hf, hregs k hk]
  rw [checkMix_eq hm, firstFailing_map_eq_none fun k hk => by simp [hregs k hk],
    firstFailing_map_eq_none hshaped, Option.none_or]

theorem exec_mix {x : Slice} (hc : s.core = .idle) (hk : checkMix mask s = none)
    (hx : mixSlices (s.maskSlices mask) = some x) :
    exec (.mix rd mask) s = .next (s.writeReg rd x) := by
  rw [exec, execMix, hk, runCommand_effect hc]
  simp only [hx]

theorem State.countP_maskSlices (s : State) (mask : BitVec 16) (bit : Slice → Bool) :
    (s.maskSlices mask).countP bit =
      (List.finRange 16).countP fun k => mask.getLsbD k.val && bit (s.reg k).slice := by
  rw [State.maskSlices, maskRegs, List.countP_map, List.countP_filter]
  simp only [Function.comp_apply, Bool.and_comm]

end Commands

/-! ### The statements -/

/-- Settles O37: XOR of slices commutes and associates in any shape; only pairs and readings need the
slices to be of one shape. -/
theorem mixLaws : Obligations.MixLaws := by
  refine ⟨fun _ _ _ _ hperm _ => mixSlices_perm hperm, fun _ _ _ _ _ _ _ => mixSlices_append,
    fun _ => rfl, fun _ _ => mixSlices_pair, fun payload sz xs m hxs hm => ?_⟩
  have hshape : ∀ x ∈ xs, x.n = ceilDiv payload.length sz ∧ x.s = sz := fun x hx => by
    obtain ⟨hn, hs, _⟩ := hxs x hx
    exact ⟨hn, hs⟩
  exact ⟨mixSlices_of_xor (fun _ _ => Slice.ValidFor.xor) hxs hm,
    fun i _ => getD_coef_mixSlices hshape hm i, fun k _ => getD_data_mixSlices hshape hm k⟩

/-- Settles O36: the sources are the slices of the old state, so `rd` may be one of them. -/
theorem mixWritesTheParity : Obligations.MixWritesTheParity := by
  intro s rd mask n sz hc hmask hregs
  have hk := checkMix_of_shape hmask hregs
  obtain ⟨x, hx⟩ := mixSlices_maskSlices hk
  have hshape : ∀ y ∈ s.maskSlices mask, y.n = n ∧ y.s = sz := by
    refine State.maskSlices_regs hk fun k hmem _ => ?_
    obtain ⟨_, hn, hs⟩ := hregs k ((mem_maskRegs mask k).1 hmem)
    exact ⟨hn, hs⟩
  obtain ⟨hn, hs⟩ := mixSlices_shape hshape hx
  refine ⟨_, exec_mix hc hk hx, ?_⟩
  rw [State.reg_writeReg_self]
  refine ⟨rfl, hn, hs, fun i _ => ?_, fun j _ b _ => ?_, s.sameRegsBut_writeReg rd x,
    fun _ => rfl, rfl⟩
  · rw [getD_coef_mixSlices hshape hx, State.countP_maskSlices]
  · rw [getLsbD_data_mixSlices hshape hx, State.countP_maskSlices]

/-- Settles O35: with the payload there, the systematic slice is read whole. -/
theorem splitWritesTheSegment : Obligations.SplitWritesTheSegment := by
  intro s rd i hc hready hi hthere
  refine ⟨_, exec_split hc hready hi (State.sys_eq hthere i), ?_⟩
  rw [State.reg_writeReg_self]
  exact ⟨rfl, length_unitVector _ i, length_segmentOf _ _ i, fun j hj => getD_unitVector _ i j hj,
    fun _ hk => State.getD_segmentOf hthere i hk, s.sameRegsBut_writeReg rd _, fun _ => rfl, rfl⟩

end Sys2Proof.Machine

/-!
SUPPORT. PAY.LOAD and GEN.INIT (43_generator.md R220, R221): the states they leave; then O41, O42.
-/

namespace Sys2Proof.Machine

section Setup

variable {s : State}

theorem exec_payLoad {len : Nat} (hc : s.core = .idle) (hlen : len ≤ s.params.pmax)
    (hin : len ≤ s.here.dinq.length) : exec (.payLoad len) s = .next (s.afterPayLoad len) := by
  rw [exec, execPayLoad, checkPayLoad_eq_none.2 hlen, runCommand_effect hc, withInput_ready hin]
  rfl

theorem exec_genInit {sz : Nat} {sys : Bool} (hc : s.core = .idle) (hvalid : s.payValid = true)
    (hpos : 1 ≤ sz) (hsz : sz ≤ s.params.smax)
    (hn : ceilDiv s.payloadLen.toNat sz ≤ s.params.nmax) :
    exec (.genInit sz sys) s = .next (s.afterGenInit sz sys) := by
  rw [exec, execGenInit, checkGenInit_eq_none.2 ⟨hvalid, ⟨hpos, hsz⟩, hn⟩, runCommand_effect hc]
  rfl

/-- Below `len`, payload memory holds the bytes popped, in order; from `len` on, what it held. -/
theorem State.read_afterPayLoad {len : Nat} (hin : len ≤ s.here.dinq.length) (a : Nat) :
    Memory.read (s.afterPayLoad len).pmem a =
      if a < len then some (s.here.dinq.getD a 0) else Memory.read s.pmem a := by
  have hread := Memory.read_writeAll s.pmem 0 (s.here.dinq.take len) a
  simp only [List.length_take_of_le hin, Nat.zero_le, true_and, Nat.zero_add, Nat.sub_zero] at hread
  refine hread.trans (ite_congr rfl (fun ha => ?_) fun _ => rfl)
  have hlt : a < s.here.dinq.length := by omega
  rw [List.getElem?_take_of_lt ha, List.getElem?_eq_getElem hlt, List.getD_eq_getElem _ _ hlt]

end Setup

/-! ### The statements -/

/-- Settles O41: memory is read back address by address. -/
theorem payLoadWritesThePayload : Obligations.PayLoadWritesThePayload := by
  intro s len hok hc hlen hin
  obtain ⟨_, _, ⟨_, hpmax⟩, _⟩ := hok
  refine ⟨s.afterPayLoad len, exec_payLoad hc hlen hin, fun a ha => ?_, fun a ha => ?_,
    toNat_ofNat_of_le hlen hpmax, s.onlyPortNow_setPort _, rfl⟩
  · rw [State.read_afterPayLoad hin, if_pos ha]
  · rw [State.read_afterPayLoad hin, if_neg (Nat.not_lt.2 ha)]

/-- Settles O42: the parameters' ranges keep both sizes within their fields. -/
theorem genInitMakesAnInstance : Obligations.GenInitMakesAnInstance := by
  intro s sz sys hok hc hvalid hpos hsz hn
  obtain ⟨⟨_, hnmax⟩, ⟨_, hsmax⟩, _⟩ := hok
  exact ⟨s.afterGenInit sz sys, exec_genInit hc hvalid hpos hsz hn, rfl, rfl,
    toNat_ofNat_of_le hsz hsmax, toNat_ofNat_of_le hn hnmax, rfl, rfl, rfl, fun _ => rfl, rfl⟩

end Sys2Proof.Machine

/-!
SUPPORT. GEN.NEXT (43_generator.md R222, R223): the state each of its ways leaves, and the element a
mix of systematic slices is: its coefficients are the selection, its data the combination of the
segments selected; then O43, O44, O45.
-/

namespace Sys2Proof.Machine

/-! ### The states GEN.NEXT leaves -/

section Draws

variable {s : State} {rd : SIdx}

theorem exec_genNext_systematic {x : Slice} (hc : s.core = .idle) (hsys : s.genInSys = true)
    (hx : s.sys s.gen.sysPos.toNat = some x) :
    exec (.genNext rd) s = .next (s.countSystematic.emit rd x) := by
  have hready : checkGenNext s = none := checkGenNext_eq_none.2 (s.genInSys_iff.1 hsys).1
  rw [exec, execGenNext_start (by simp [hc]), check, hready, runCommand_effect hc, if_pos hsys,
    emitSystematic, hx]
  rfl

/-- At a draw, started or resumed, GEN.NEXT does the same. -/
theorem exec_genNext_atDraw (hd : s.AtDraw) : exec (.genNext rd) s = drawOnce rd s := by
  obtain hc | ⟨hc, hready, hsys⟩ := hd
  · exact execGenNext_resume hc
  · rw [exec, execGenNext_start (by simp [hc]), check, checkGenNext_eq_none.2 hready,
      runCommand_effect hc, hsys]
    rfl

theorem drawOnce_hold (h : s.rngIn.length < s.drawBytes) : drawOnce rd s = .next s.holdDraw :=
  if_pos h

theorem drawOnce_emit {x : Slice} (h : s.drawBytes ≤ s.rngIn.length) (hsel : s.drawSel.any id = true)
    (hx : s.mixSel s.drawSel = some x) : drawOnce rd s = .next (s.afterDraw.emit rd x) := by
  rw [drawOnce, if_neg (Nat.not_lt.2 h), if_pos hsel, hx]

theorem drawOnce_discard (h : s.drawBytes ≤ s.rngIn.length) (hsel : s.drawSel.any id = false) :
    drawOnce rd s = .next s.afterDraw.holdDraw := by
  rw [drawOnce, if_neg (Nat.not_lt.2 h), hsel]
  rfl

/-- A draw selects something when one of its first GEN_N bits is set (43_generator.md R222). -/
theorem State.drawSel_any (s : State) :
    s.drawSel.any id = true ↔ ∃ i < s.gen.n.toNat, imageBit s.rngIn i = true := by
  simp [State.drawSel, packBits]

end Draws

@[simp] theorem State.reg_emit_self (s : State) (rd : SIdx) (x : Slice) :
    (s.emit rd x).reg rd = ⟨true, x⟩ := State.reg_writeReg_self s rd x

theorem State.sameRegsBut_emit (s : State) (rd : SIdx) (x : Slice) :
    s.SameRegsBut (s.emit rd x) rd := s.sameRegsBut_writeReg rd x

/-! ### The mix of a selection -/

section Mix

/-- Sys(j) with the payload there (42_split_mix.md R200). -/
def State.systematicSlice (s : State) (j : Nat) : Slice :=
  ⟨unitVector s.gen.n.toNat j, segmentOf s.payload s.gen.s.toNat j⟩

variable {s : State} {sel : List Bool} {z : Slice}

theorem State.sys_eq_systematicSlice (h : s.PayloadThere) (j : Nat) :
    s.sys j = some (s.systematicSlice j) := State.sys_eq h j

theorem State.mixSel_eq_mixSlices (h : s.PayloadThere) (sel : List Bool) :
    s.mixSel sel = mixSlices ((selected sel).map s.systematicSlice) := by
  have hall : allSome ((selected sel).map s.sys) = some ((selected sel).map s.systematicSlice) := by
    rw [allSome_eq_some, List.map_map]
    exact List.map_congr_left fun j _ => State.sys_eq_systematicSlice h j
  rw [State.mixSel, hall, Option.bind_some]

/-- An index is selected once if its bit is set, and else not at all. -/
theorem count_selected (sel : List Bool) (i : Nat) :
    (selected sel).count i = (sel.getD i false).toNat := by
  have hnodup : (selected sel).Nodup := List.nodup_range.filter _
  have hmem : i ∈ selected sel ↔ sel.getD i false = true := by
    rw [mem_selected, and_iff_right_iff_imp]
    intro h
    by_contra hi
    simp [Nat.not_lt.1 hi] at h
  rw [hnodup.count]
  simp only [hmem]
  cases sel.getD i false <;> rfl

/-- The coefficients of the mix are the selection: each unit vector is XORed in once. -/
theorem State.coef_mixSel (h : s.PayloadThere) (hlen : sel.length = s.gen.n.toNat)
    (hz : s.mixSel sel = some z) : z.coef = sel := by
  rw [State.mixSel_eq_mixSlices h] at hz
  have hshape : ∀ x ∈ (selected sel).map s.systematicSlice,
      x.n = s.gen.n.toNat ∧ x.s = s.gen.s.toNat := by
    intro x hx
    obtain ⟨j, _, rfl⟩ := List.mem_map.1 hx
    exact ⟨length_unitVector _ j, length_segmentOf _ _ j⟩
  obtain ⟨hn, _⟩ := mixSlices_shape hshape hz
  refine eq_of_getD_eq false (hn.trans hlen.symm) fun i hi => ?_
  have hunit : ((·.coef.getD i false) ∘ s.systematicSlice) = (· == i) := by
    funext j
    exact (getD_unitVector _ j i (hlen ▸ hi)).trans Bool.beq_comm
  rw [getD_coef_mixSlices hshape hz, List.countP_map, hunit, ← List.count_eq_countP, count_selected]
  cases sel.getD i false <;> rfl

/-- XOR keeps that data are the combination the coefficients name (10_state.md R61). -/
theorem Slice.data_xor_eq_combine {payload : List Byte} {sz : Nat} {x y : Slice} (hn : x.n = y.n)
    (hx : x.data = combine payload sz x.coef) (hy : y.data = combine payload sz y.coef) :
    (x.xor y).data = combine payload sz (x.xor y).coef := by
  rw [Slice.xor, combine_xorBits payload sz hn, ← hx, ← hy]

/-- The data of the mix are the combination its coefficients name. -/
theorem State.data_mixSel (h : s.PayloadThere) (hlen : sel.length = s.gen.n.toNat)
    (hz : s.mixSel sel = some z) : z.data = combine s.payload s.gen.s.toNat z.coef := by
  refine (State.mixSel_of_xor
    (P := fun x => x.n = s.gen.n.toNat ∧ x.data = combine s.payload s.gen.s.toNat x.coef)
    (fun x y ⟨hxn, hx⟩ ⟨hyn, hy⟩ => ?_) (fun j hj x hx => ?_) hz).2
  · exact ⟨by simp [hxn, hyn], Slice.data_xor_eq_combine (hxn.trans hyn.symm) hx hy⟩
  · rw [State.sys_eq_systematicSlice h, Option.some.injEq] at hx
    subst hx
    exact ⟨length_unitVector _ j, (combine_unitVector _ _ (hlen ▸ hj)).symm⟩

end Mix

/-! ### The statements -/

/-- Settles O43: with the payload there, the systematic slice is read whole. -/
theorem genNextEmitsSystematicSlices : Obligations.GenNextEmitsSystematicSlices := by
  intro s rd hc hready hsystematic hpos hthere
  have hx := State.sys_eq_systematicSlice hthere s.gen.sysPos.toNat
  refine ⟨_, exec_genNext_systematic hc (s.genInSys_iff.2 ⟨hready, hsystematic, hpos⟩) hx, ?_⟩
  rw [State.reg_emit_self]
  exact ⟨rfl, length_unitVector _ _, fun j hj => getD_unitVector _ _ j hj, rfl,
    s.countSystematic.sameRegsBut_emit rd _, fun _ => rfl, by rw [hc]; rfl⟩

/-- Settles O44: the element is read off `State.coef_mixSel` and `State.data_mixSel`. -/
theorem genNextEmitsRandomMixes : Obligations.GenNextEmitsRandomMixes := by
  intro s rd hd hin hbit hthere
  have hsel : s.drawSel.any id = true := s.drawSel_any.2 hbit
  have hlen : s.drawSel.length = s.gen.n.toNat := length_packBits _ _
  obtain ⟨x, hx⟩ := State.mixSel_goes hthere hsel
  have hcoef := State.coef_mixSel hthere hlen hx
  refine ⟨_, (exec_genNext_atDraw hd).trans (drawOnce_emit hin hsel hx), ?_⟩
  rw [State.reg_emit_self]
  refine ⟨rfl, ?_, fun i hi => ?_, State.data_mixSel hthere hlen hx,
    s.afterDraw.sameRegsBut_emit rd x, fun _ => rfl, rfl⟩
  · rw [Slice.n, hcoef, hlen]
  · rw [hcoef]
    exact getD_packBits _ _ _ hi

/-- Settles O45: the two ways of a draw that emit nothing. -/
theorem genNextHoldsAndDiscards : Obligations.GenNextHoldsAndDiscards := by
  intro s rd hd
  rw [exec_genNext_atDraw hd]
  refine ⟨fun hin => drawOnce_hold hin, fun hin hzero => drawOnce_discard hin ?_⟩
  rw [Bool.eq_false_iff, Ne, State.drawSel_any]
  rintro ⟨i, hi, hbit⟩
  exact Bool.false_ne_true ((hzero i hi).symm.trans hbit)

end Sys2Proof.Machine

/-!
SUPPORT. Determinism of the generator (43_generator.md R224 (a)): two machines that agree on what
GEN.NEXT reads do the same draw and the same emission; then O47.
-/

namespace Sys2Proof.Machine

section Determinism

/-- The two machines agree on all that GEN.NEXT reads: the payload, the generator, the random bytes,
and where it is in its work. -/
structure State.SameSource (s u : State) : Prop where
  core : u.core = s.core
  gen : u.gen = s.gen
  payloadLen : u.payloadLen = s.payloadLen
  rngIn : u.rngIn = s.rngIn
  bytes : ∀ a < s.payloadLen.toNat, Memory.read u.pmem a = Memory.read s.pmem a

/-- The two machines are as far in the sequence, and a GEN.NEXT that is over has put the same element
into register `rd` of both. -/
structure State.SameEmission (rd : SIdx) (t v : State) : Prop where
  core : v.core = t.core
  gen : v.gen = t.gen
  rngIn : v.rngIn = t.rngIn
  element : t.core = .idle → v.reg rd = t.reg rd

variable {s t u : State} {rd : SIdx}

namespace State.SameSource

theorem sys_eq (h : s.SameSource u) (j : Nat) : u.sys j = s.sys j := by
  have hbyte : u.segByte j = s.segByte j := by
    funext k
    rw [State.segByte, State.segByte, h.gen, h.payloadLen]
    split
    · next hk => exact h.bytes _ hk
    · rfl
  rw [State.sys, State.sys, State.seg, State.seg, hbyte, h.gen]

theorem mixSel_eq (h : s.SameSource u) (sel : List Bool) : u.mixSel sel = s.mixSel sel := by
  rw [State.mixSel, State.mixSel, funext h.sys_eq]

theorem drawBytes_eq (h : s.SameSource u) : u.drawBytes = s.drawBytes := by
  rw [State.drawBytes, State.drawBytes, h.gen]

theorem drawSel_eq (h : s.SameSource u) : u.drawSel = s.drawSel := by
  rw [State.drawSel, State.drawSel, h.gen, h.rngIn]

theorem genInSys_eq (h : s.SameSource u) : u.genInSys = s.genInSys := by
  rw [State.genInSys, State.genInSys, h.gen]

end State.SameSource

/-- Writing one element with one generator state does the same in both. -/
theorem State.sameEmission_emit (hgen : u.gen = s.gen) (hrng : u.rngIn = s.rngIn) (rd : SIdx)
    (x : Slice) : State.SameEmission rd (s.emit rd x) (u.emit rd x) where
  core := rfl
  gen := by simp [hgen]
  rngIn := hrng
  element _ := (u.reg_emit_self rd x).trans (s.reg_emit_self rd x).symm

/-- A GEN.NEXT that is not over has no element yet. -/
theorem State.sameEmission_of_busy (hcore : u.core = s.core) (hgen : u.gen = s.gen)
    (hrng : u.rngIn = s.rngIn) (hbusy : s.core ≠ .idle) : State.SameEmission rd s u :=
  ⟨hcore, hgen, hrng, fun hidle => absurd hidle hbusy⟩

namespace State.SameSource

theorem gen_afterDraw_eq (h : s.SameSource u) : u.afterDraw.gen = s.afterDraw.gen := by
  simp [h.gen]

theorem rngIn_afterDraw_eq (h : s.SameSource u) : u.afterDraw.rngIn = s.afterDraw.rngIn := by
  simp [h.rngIn, h.drawBytes_eq]

theorem drawOnce_next (h : s.SameSource u) (ht : drawOnce rd s = .next t) :
    ∃ v, drawOnce rd u = .next v ∧ State.SameEmission rd t v := by
  obtain ⟨hin, rfl⟩ | ⟨hin, hsel, x, hx, rfl⟩ | ⟨hin, hsel, rfl⟩ := Machine.drawOnce_next ht
  all_goals rw [← h.rngIn, ← h.drawBytes_eq] at hin
  · exact ⟨_, drawOnce_hold hin, sameEmission_of_busy rfl h.gen h.rngIn (by simp)⟩
  · rw [← h.mixSel_eq, ← h.drawSel_eq] at hx
    rw [← h.drawSel_eq] at hsel
    exact ⟨_, drawOnce_emit hin hsel hx,
      sameEmission_emit h.gen_afterDraw_eq h.rngIn_afterDraw_eq rd x⟩
  · rw [← h.drawSel_eq] at hsel
    exact ⟨_, drawOnce_discard hin hsel,
      sameEmission_of_busy rfl h.gen_afterDraw_eq h.rngIn_afterDraw_eq (by simp)⟩

theorem emitSystematic_next (h : s.SameSource u) (ht : emitSystematic rd s = .next t) :
    ∃ v, emitSystematic rd u = .next v ∧ State.SameEmission rd t v := by
  unfold emitSystematic at ht
  split at ht <;> cases ht
  next x hx =>
  rw [← h.sys_eq, ← h.gen] at hx
  refine ⟨u.countSystematic.emit rd x, by rw [emitSystematic, hx]; rfl, ?_⟩
  exact sameEmission_emit (s := s.countSystematic) (u := u.countSystematic)
    (by simp only [State.countSystematic, h.gen]) h.rngIn rd x

theorem execGenNext_next (h : s.SameSource u) (ht : execGenNext rd s = .next t) :
    ∃ v, execGenNext rd u = .next v ∧ State.SameEmission rd t v := by
  by_cases hd : s.core = .exec .drawing
  · rw [execGenNext_resume hd] at ht
    rw [execGenNext_resume (h.core.trans hd)]
    exact h.drawOnce_next ht
  · have hcheck : check (.genNext rd) u = check (.genNext rd) s := by
      simp only [check, checkGenNext, h.gen]
    rw [execGenNext_start hd] at ht
    rw [execGenNext_start (h.core.trans_ne hd), hcheck, h.genInSys_eq]
    obtain ⟨hc, rfl⟩ | ⟨hc, f, hk, rfl⟩ | ⟨hc, hk, he⟩ := runCommand_next ht
    · exact ⟨_, runCommand_halted (h.core.trans hc) _ _,
        sameEmission_of_busy h.core h.gen h.rngIn (by simp [hc])⟩
    · rw [hk, runCommand_trap (h.core.trans hc)]
      exact ⟨_, rfl, sameEmission_of_busy rfl h.gen h.rngIn (by simp)⟩
    · rw [hk, runCommand_effect (h.core.trans hc)]
      split at he
      · next hsys => rw [if_pos hsys]; exact h.emitSystematic_next he
      · next hsys => rw [if_neg hsys]; exact h.drawOnce_next he

end State.SameSource

end Determinism

/-- Settles O47: each way GEN.NEXT goes on in one machine it goes on in the other. -/
theorem generatorIsDeterministic : Obligations.GeneratorIsDeterministic := by
  intro s u t rd hcore hgen hlen hrng hbytes ht
  have h : s.SameSource u := ⟨hcore, hgen, hlen, hrng, hbytes⟩
  obtain ⟨v, hv, hsame⟩ := h.execGenNext_next ht
  exact ⟨v, hv, hsame.core, hsame.gen, hsame.rngIn, hsame.element⟩

end Sys2Proof.Machine

/-!
SUPPORT. The livelock of an empty generator (43_generator.md R225 (a)): a draw of no bytes selects
nothing, so the core's turn leaves GEN.NEXT in progress, and no other agent but reset ends it; then
O46.
-/

namespace Sys2Proof.Machine

section Livelock

/-- GEN.NEXT holds at a draw of a generator without segments (43_generator.md R225 (a)). -/
structure State.EmptyDraw (s : State) : Prop where
  drawing : s.core = .exec .drawing
  empty : s.gen.n = 0
  command : ∃ rd, decodeCommand s.cmdWord = .command (.genNext rd)

/-- Between the states, GEN.NEXT has not ended: it draws on, no register is written and no element
counted; the moves to come are as before. -/
structure State.DrawsOn (s t : State) : Prop where
  emptyDraw : t.EmptyDraw
  sregs : t.sregs = s.sregs
  index : t.gen.index = s.gen.index
  agenda : t.agenda = s.agenda

variable {s t : State} {e : Event}

/-- What the moves of the agents outside the core, reset apart, leave alone: all but the queues and the
two collaborator ports. -/
theorem move_frame (hcore : ∀ p, e ≠ .core p) (hrst : e ≠ .rst) (h : move e s = .next t) :
    t = { s with ports := t.ports, rngIn := t.rngIn, planIn := t.planIn } := by
  cases e with
  | core p => exact absurd rfl (hcore p)
  | rst => exact absurd rfl hrst
  | pushCmd p w => cases h; rw [State.pushCmd_eq]; split <;> rfl
  | pushByte p b => cases h; rw [State.pushByte_eq]; split <;> rfl
  | popByte p => cases h; rfl
  | popResp p => cases h; rfl
  | rng b => cases h; rw [State.supplyByte_eq]; split <;> rfl
  | plan w => cases h; unfold State.supplyToken; split <;> rfl

/-- The core's turn takes the empty draw, which selects nothing, and is at the next one. -/
theorem State.EmptyDraw.coreTurn_eq (h : s.EmptyDraw) (p : Nat) :
    coreTurn p s = .next s.afterDraw.holdDraw := by
  obtain ⟨rd, hrd⟩ := h.command
  have hbytes : s.drawBytes = 0 := by rw [State.drawBytes, h.empty]; rfl
  have hsel : s.drawSel.any id = false := by
    rw [State.drawSel, h.empty]; rfl
  rw [coreTurn_of_run ((fetch_drawing h.drawing p).trans (fetchCommand_command hrd s)),
    exec_genNext_atDraw (.inl h.drawing), drawOnce_discard (hbytes ▸ Nat.zero_le _) hsel]

/-- The other agents, reset apart, do not end it. -/
theorem State.EmptyDraw.drawsOn_of_frame (h : s.EmptyDraw)
    (ht : t = { s with ports := t.ports, rngIn := t.rngIn, planIn := t.planIn }) : s.DrawsOn t := by
  rw [ht]
  exact ⟨⟨h.drawing, h.empty, h.command⟩, rfl, rfl, rfl⟩

theorem State.EmptyDraw.move_drawsOn (h : s.EmptyDraw) (hrst : e ≠ .rst) :
    ∃ t, move e s = .next t ∧ s.DrawsOn t := by
  have frame (hcore : ∀ p, e ≠ .core p) {t : State} (ht : move e s = .next t) : s.DrawsOn t :=
    h.drawsOn_of_frame (move_frame hcore hrst ht)
  cases e with
  | core p => exact ⟨_, h.coreTurn_eq p, ⟨rfl, h.empty, h.command⟩, rfl, rfl, rfl⟩
  | rst => exact absurd rfl hrst
  | _ => exact ⟨_, rfl, frame (by simp) rfl⟩

/-- A run of some steps starts with its first. -/
theorem run_succ_of_step {M : Host.Core} {k : Nat} {x y : M.State} (h : M.step x = .next y) :
    M.run (k + 1) x = M.run k y := by
  rw [Host.Core.run, h]

end Livelock

/-- Settles O46, by induction on the moves to come. -/
theorem emptyGeneratorLivelocks : Obligations.EmptyGeneratorLivelocks := by
  intro s rd hc hn hrd
  have h : s.EmptyDraw := ⟨hc, hn, rd, hrd⟩
  clear hc hn hrd
  generalize hm : s.agenda = moves
  intro hrst
  induction moves generalizing s with
  | nil => exact ⟨s, rfl, h.drawing, rfl, rfl⟩
  | cons e rest ih =>
    obtain ⟨he, hrest⟩ := List.forall_mem_cons.1 hrst
    have hnext := State.nextMove_cons hm
    have hu : State.EmptyDraw { s with agenda := rest } := ⟨h.drawing, h.empty, h.command⟩
    obtain ⟨v, hv, hon⟩ := hu.move_drawsOn he
    obtain ⟨t, hrun, htc, hregs, hindex⟩ := ih v hon.emptyDraw hon.agenda hrest
    refine ⟨t, ?_, htc, hregs.trans hon.sregs, hindex.trans hon.index⟩
    exact (run_succ_of_step (M := Sys2Proof.core) ((step_of_nextMove hnext).trans hv)).trans hrun

end Sys2Proof.Machine

/-!
SUPPORT. The solver commands (44_solver.md R250 to R253): which of their checks fails first, and the
states they leave; then O26, O49, O50, O51, O52.
-/

namespace Sys2Proof.Machine

/-! ### Which check of a solver command fails first -/

section Checks

variable {s : State} {rs : SIdx}

theorem checkSolInit_badConfig {sz tl : Nat}
    (h : sz = 0 ∨ s.params.smax < sz ∨ s.params.nmax < ceilDiv tl sz) :
    checkSolInit sz tl s = some ⟨.badConfig, 0⟩ := by
  by_cases hsz : sz = 0 ∨ s.params.smax < sz
  · simp [checkSolInit, firstFailing_cons, hsz]
  · have hn : s.params.nmax < ceilDiv tl sz := by tauto
    simp [checkSolInit, firstFailing_cons, hn]

theorem checkSolRem_uninit (h : s.sol.ready = false) : checkSolRem rs s = some ⟨.solUninit, 0⟩ := by
  simp [checkSolRem, firstFailing_cons, h]

theorem checkSolRem_unwritten (hr : s.sol.ready = true) (h : (s.reg rs).valid = false) :
    checkSolRem rs s = some ⟨.sregUnwritten, rs.val⟩ := by
  simp [checkSolRem, firstFailing_cons, hr, h]

theorem checkSolRem_shape (hr : s.sol.ready = true) (hv : (s.reg rs).valid = true)
    (h : (s.reg rs).slice.n ≠ s.sol.n.toNat ∨ (s.reg rs).slice.s ≠ s.sol.s.toNat) :
    checkSolRem rs s = some ⟨.shape, rs.val⟩ := by
  rw [checkSolRem, firstFailing_cons, if_neg (by simp [hr]), firstFailing_cons,
    if_neg (by simp [hv]), firstFailing_cons, if_pos (decide_eq_true h)]

theorem checkSolRem_full (hr : s.sol.ready = true) (hv : (s.reg rs).valid = true)
    (hn : (s.reg rs).slice.n = s.sol.n.toNat) (hs : (s.reg rs).slice.s = s.sol.s.toNat)
    (h : s.solRows = s.params.rmax) : checkSolRem rs s = some ⟨.rowsFull, 0⟩ := by
  simp [checkSolRem, firstFailing_cons, hr, hv, hn, hs, h]

theorem checkSolRemin_uninit (h : s.sol.ready = false) :
    checkSolRemin s = some ⟨.solUninit, 0⟩ := by
  simp [checkSolRemin, firstFailing_cons, h]

theorem checkSolRemin_full (hr : s.sol.ready = true) (h : s.solRows = s.params.rmax) :
    checkSolRemin s = some ⟨.rowsFull, 0⟩ := by
  simp [checkSolRemin, firstFailing_cons, hr, h]

theorem checkSolTry_uninit (h : s.sol.ready = false) : checkSolTry s = some ⟨.solUninit, 0⟩ := by
  simp [checkSolTry, firstFailing_cons, h]

end Checks

/-! ### The states the solver commands leave -/

section Effects

variable {s : State}

theorem exec_solInit {sz tl : Nat} (hc : s.core = .idle) (hpos : 1 ≤ sz) (hsz : sz ≤ s.params.smax)
    (hn : ceilDiv tl sz ≤ s.params.nmax) :
    exec (.solInit sz tl) s = .next (s.afterSolInit sz tl) := by
  rw [exec, execSolInit, checkSolInit_eq_none.2 ⟨⟨hpos, hsz⟩, hn⟩, runCommand_effect hc]
  rfl

theorem exec_solRem {rs : SIdx} (hc : s.core = .idle) (hk : checkSolRem rs s = none) :
    exec (.solRem rs) s = .next (s.appendRow (s.reg rs).slice) := by
  rw [exec, execSolRem, hk, runCommand_effect hc]

/-- The row appended is read from the head of the queue, whose bytes past the image stay. -/
theorem exec_solRemin (hc : s.core = .idle) (hk : checkSolRemin s = none)
    (hin : imageLength s.sol.n.toNat s.sol.s.toNat ≤ s.here.dinq.length) :
    exec .solRemin s = .next ((s.dinDrop (imageLength s.sol.n.toNat s.sol.s.toNat)).appendRow
      (sliceOfImage s.sol.n.toNat s.sol.s.toNat s.here.dinq)) := by
  rw [exec, execSolRemin, hk, runCommand_effect hc, withInput_ready hin, sliceOfImage_take]

theorem exec_solTry_absent (hc : s.core = .idle) (hr : s.sol.ready = true)
    (hrows : s.solRows < s.sol.n.toNat) : exec .solTry s = .next s.answerAbsent := by
  rw [exec, execSolTry, checkSolTry_eq_none.2 hr, runCommand_effect hc, if_pos hrows]

theorem exec_solTry_open (hc : s.core = .idle) (hr : s.sol.ready = true)
    (hrows : s.sol.n.toNat ≤ s.solRows) : exec .solTry s = .next s.openSession := by
  rw [exec, execSolTry, checkSolTry_eq_none.2 hr, runCommand_effect hc, if_neg (Nat.not_lt.2 hrows)]

@[simp] theorem State.presented_openSession (s : State) :
    s.openSession.presented = some (s.sol.n, s.sol.rows.map Slice.coef) := rfl

end Effects

/-! ### The rows after one is appended -/

theorem State.solRows_appendRow (s : State) (x : Slice) : (s.appendRow x).solRows = s.solRows + 1 :=
  List.length_append

theorem State.rowAt_append_last (s : State) (x : Slice) :
    rowAt (s.sol.rows ++ [x]) s.solRows = x := by
  simp [rowAt, State.solRows]

theorem State.rowAt_append_of_lt (s : State) (x : Slice) {r : Nat} (h : r < s.solRows) :
    rowAt (s.sol.rows ++ [x]) r = rowAt s.sol.rows r :=
  List.getD_append _ _ _ _ h

theorem tryResponse_absent : tryResponse false = 0x3300000000000000 := by decide

theorem tryResponse_present : tryResponse true = 0x3300000000000001 := by decide

/-! ### The statements -/

/-- Settles O26: each clause is the first failing check of its command. -/
theorem solverCommandsTrapInOrder : Obligations.SolverCommandsTrapInOrder := by
  intro s rs hc
  have trap {i : Instr} {u : Trap} (hk : check i s = some u) := State.faultsWith_of_check hc hk
  exact ⟨fun sz tl h => trap (i := .solInit sz tl) (checkSolInit_badConfig h),
    fun h => ⟨trap (i := .solRem rs) (checkSolRem_uninit h),
      trap (i := .solRemin) (checkSolRemin_uninit h), trap (i := .solTry) (checkSolTry_uninit h)⟩,
    fun hr h => trap (i := .solRem rs) (checkSolRem_unwritten hr h),
    fun hr hv h => trap (i := .solRem rs) (checkSolRem_shape hr hv h),
    fun hr hv hn hs h => trap (i := .solRem rs) (checkSolRem_full hr hv hn hs h),
    fun hr h => trap (i := .solRemin) (checkSolRemin_full hr h)⟩

/-- Settles O49: the parameters' ranges keep the sizes within their fields. -/
theorem solInitMakesAnInstance : Obligations.SolInitMakesAnInstance := by
  intro s sz tl hok hc hpos hsz htl hn
  obtain ⟨⟨_, hnmax⟩, ⟨_, hsmax⟩, _⟩ := hok
  exact ⟨s.afterSolInit sz tl, exec_solInit hc hpos hsz hn, rfl, toNat_ofNat_of_le hsz hsmax,
    Nat.mod_eq_of_lt htl, toNat_ofNat_of_le hn hnmax, rfl, rfl, rfl, fun _ => rfl, rfl⟩

/-- Settles O50. -/
theorem solRemAppendsACopy : Obligations.SolRemAppendsACopy := by
  intro s rs hc hr hv hn hs hroom
  exact ⟨_, exec_solRem hc (checkSolRem_eq_none.2 ⟨hr, hv, ⟨hn, hs⟩, hroom⟩),
    s.solRows_appendRow _, s.rowAt_append_last _, fun _ => s.rowAt_append_of_lt _,
    fun _ => rfl, rfl⟩

/-- Settles O51: the row is the slice whose image heads the queue. -/
theorem solReminAppendsTheInput : Obligations.SolReminAppendsTheInput := by
  intro s hc hr hroom hin
  refine ⟨_, exec_solRemin hc (checkSolRemin_eq_none.2 ⟨hr, hroom⟩) hin, ?_⟩
  obtain ⟨hn, hs⟩ := sliceOfImage_shape (List.length_take_of_le hin)
  rw [sliceOfImage_take] at hn hs
  simp only [State.appendRow_sol, State.dinDrop_sol, s.rowAt_append_last]
  exact ⟨State.solRows_appendRow _ _, hn, hs, fun _ hi => getD_coef_sliceOfImage _ _ hi,
    fun _ hk => getD_data_sliceOfImage _ _ hk, fun _ => s.rowAt_append_of_lt _,
    s.onlyPortNow_setPort _, fun _ => rfl, rfl⟩

/-- Settles O52. -/
theorem solTryAnswersAbsentOrOpensASession : Obligations.SolTryAnswersAbsentOrOpensASession := by
  refine fun s hc hr => ⟨fun hrows => ⟨_, exec_solTry_absent hc hr hrows, ?_, fun _ => rfl, rfl⟩,
    fun hrows => ⟨_, exec_solTry_open hc hr hrows, rfl, fun _ => rfl, rfl⟩⟩
  rw [← tryResponse_absent]
  exact s.onlyPortNow_setPort _

end Sys2Proof.Machine

/-!
SUPPORT. The row operations of a plan (44_solver.md R254, R255): each row after a SWAP and after an XOR,
and the properties of rows they keep; then O56, O53, O54, O59.
-/

namespace Sys2Proof.Machine

/-! ### Each row after a SWAP and after an XOR -/

section Rows

variable {rows : List Slice} {a b : Nat}

theorem applySwap_of_ge (h : rows.length ≤ a ∨ rows.length ≤ b) : applySwap a b rows = rows :=
  if_pos h

theorem applyXor_of_ge (h : rows.length ≤ a ∨ rows.length ≤ b) : applyXor a b rows = rows :=
  if_pos h

theorem rowAt_set (rows : List Slice) {a : Nat} (ha : a < rows.length) (x : Slice) (r : Nat) :
    rowAt (rows.set a x) r = if r = a then x else rowAt rows r := by
  unfold rowAt
  by_cases h : r = a
  · subst h
    simp [ha]
  · simp [h, Ne.symm h]

/-- Row `a` is the old row `b`, and row `b` the old row `a`; they may be one row. -/
theorem rowAt_applySwap (ha : a < rows.length) (hb : b < rows.length) (r : Nat) :
    rowAt (applySwap a b rows) r =
      if r = a then rowAt rows b else if r = b then rowAt rows a else rowAt rows r := by
  rw [applySwap, if_neg (by omega), rowAt_set _ (by simpa using hb), rowAt_set _ ha]
  split_ifs with hrb hra <;> simp_all

theorem rowAt_applyXor (ha : a < rows.length) (hb : b < rows.length) (r : Nat) :
    rowAt (applyXor a b rows) r =
      if r = b then (rowAt rows b).xor (rowAt rows a) else rowAt rows r := by
  rw [applyXor, if_neg (by omega), rowAt_set _ hb]

theorem eq_of_rowAt_eq {rows' : List Slice} (hlen : rows'.length = rows.length)
    (h : ∀ r < rows.length, rowAt rows' r = rowAt rows r) : rows' = rows :=
  eq_of_getD_eq _ hlen h

theorem applySwap_applySwap (a b : Nat) (rows : List Slice) :
    applySwap a b (applySwap a b rows) = rows := by
  by_cases h : rows.length ≤ a ∨ rows.length ≤ b
  · rw [applySwap_of_ge h, applySwap_of_ge h]
  · obtain ⟨ha, hb⟩ : a < rows.length ∧ b < rows.length := by omega
    have hlen := length_applySwap a b rows
    refine eq_of_rowAt_eq ((length_applySwap _ _ _).trans hlen) fun r _ => ?_
    simp only [rowAt_applySwap (hlen ▸ ha) (hlen ▸ hb), rowAt_applySwap ha hb]
    split_ifs <;> simp_all

/-- A row added twice to a row of its shape is gone (40_packed_buffer.md R159). -/
theorem Slice.xor_xor_right {x y : Slice} (h : y.n = x.n ∧ y.s = x.s) : (y.xor x).xor x = y := by
  rw [Slice.xor_assoc, Slice.xor_comm, Slice.xor_xor_cancel h]

theorem applyXor_applyXor {n sz : Nat} (hshape : ∀ x ∈ rows, x.n = n ∧ x.s = sz) (hne : a ≠ b) :
    applyXor a b (applyXor a b rows) = rows := by
  by_cases h : rows.length ≤ a ∨ rows.length ≤ b
  · rw [applyXor_of_ge h, applyXor_of_ge h]
  · obtain ⟨ha, hb⟩ : a < rows.length ∧ b < rows.length := by omega
    have hlen := length_applyXor a b rows
    obtain ⟨han, has⟩ := hshape _ (rowAt_mem ha)
    obtain ⟨hbn, hbs⟩ := hshape _ (rowAt_mem hb)
    refine eq_of_rowAt_eq ((length_applyXor _ _ _).trans hlen) fun r _ => ?_
    simp only [rowAt_applyXor (hlen ▸ ha) (hlen ▸ hb), rowAt_applyXor ha hb, if_neg hne, if_pos]
    split_ifs with hr
    · rw [hr, Slice.xor_xor_right ⟨hbn.trans han.symm, hbs.trans has.symm⟩]
    · rfl

end Rows

/-! ### Which rows the instructions make -/

section Made

variable {P : Slice → Prop} {s t : State} {i : Instr}

theorem State.forall_appendRow (hs : ∀ x ∈ s.sol.rows, P x) {y : Slice} (hy : P y) :
    ∀ x ∈ (s.appendRow y).sol.rows, P x := by
  intro x hx
  obtain hx | hx := List.mem_append.1 hx
  · exact hs x hx
  · exact List.mem_singleton.1 hx ▸ hy

/-- Rows are made by XOR from rows, but for those that SOL.REM copies and SOL.REMIN takes from the host:
a property of those is one of every row. -/
theorem Executes.rows_of_xor (h : Executes s i t) (hxor : ∀ x y, P x → P y → P (x.xor y))
    (hrem : ∀ rs, i = .solRem rs → P (s.reg rs).slice)
    (hremin : i = .solRemin → ∀ img : List Byte,
      img.length = imageLength s.sol.n.toNat s.sol.s.toNat →
      P (sliceOfImage s.sol.n.toNat s.sol.s.toNat img))
    (hs : ∀ x ∈ s.sol.rows, P x) : ∀ x ∈ t.sol.rows, P x := by
  cases h with
  | solInit => exact fun x hx => by cases hx
  | @solRem rs => exact State.forall_appendRow hs (hrem rs rfl)
  | solRemin _ _ hin =>
    exact State.forall_appendRow (s := s.dinDrop _) hs (hremin rfl _ (List.length_take_of_le hin))
  | planSwap => exact forall_applySwap hs _ _
  | planXor => exact forall_applyXor hxor hs _ _
  | _ => exact hs

end Made

/-! ### The tokens of the steps -/

section Tokens

variable {s : State}

theorem exec_planSwap (hc : s.core = .exec .planning) (a b : Nat) :
    exec (.planSwap a b) s = .next (s.afterToken (applySwap a b s.sol.rows)) :=
  inSession_open hc _

theorem exec_planXor (hc : s.core = .exec .planning) (a b : Nat) :
    exec (.planXor a b) s = .next (s.afterToken (applyXor a b s.sol.rows)) :=
  inSession_open hc _

end Tokens

/-! ### The statements -/

/-- Settles O56: a row is a row of before, an XOR of two of them, or the register's slice. -/
theorem rowsStayValid : Obligations.RowsStayValid := by
  intro payload sz s t i hs hi h
  refine (executes_of_exec h).rows_of_xor (fun _ _ => Slice.ValidFor.xor) ?_ ?_ hs
  · rintro rs rfl
    obtain ⟨_, _, hi | hi⟩ | ⟨rs', hi, hx⟩ := hi
    · cases hi
    · cases hi
    · cases hi
      exact hx
  · rintro rfl
    simp at hi

/-- Settles O53. -/
theorem planSwapExchangesRows : Obligations.PlanSwapExchangesRows := by
  intro s a b hc
  exact ⟨_, exec_planSwap hc a b, length_applySwap a b _, fun ha hb r _ => rowAt_applySwap ha hb r,
    applySwap_of_ge, fun _ => rfl, rfl⟩

/-- Settles O54: row `b` is the XOR of the old rows, element by element. -/
theorem planXorAddsRows : Obligations.PlanXorAddsRows := by
  intro s a b n sz hc hshape
  refine ⟨_, exec_planXor hc a b, length_applyXor a b _, fun ha hb => ?_, applyXor_of_ge,
    fun _ => rfl, rfl⟩
  have hrow := rowAt_applyXor (rows := s.sol.rows) ha hb
  have hsa := hshape _ (rowAt_mem ha)
  have hsb := hshape _ (rowAt_mem hb)
  obtain ⟨hn, hs⟩ := Slice.shape_xor _ _ hsb hsa
  simp only [State.afterToken_sol, hrow, if_pos]
  exact ⟨hn, hs, fun i _ => takesXorTo_coef n sz i _ _ hsb hsa,
    fun k _ => takesXorTo_data n sz k _ _ hsb hsa, fun r hr => if_neg hr⟩

/-- Settles O59. -/
theorem rowOperationsUndoThemselves : Obligations.RowOperationsUndoThemselves := fun rows a b _ _ hshape =>
  ⟨applySwap_applySwap a b rows, applyXor_applyXor hshape⟩

end Sys2Proof.Machine

/-!
SUPPORT. Plan sessions (44_solver.md R253, R256 to R258): what one token does to a session that waits
for it, what the steps of a plan do one after another, and the three ends; then O55, O57.
-/

namespace Sys2Proof.Machine

/-! ### The terminators -/

/-- The state COMPLETE leaves (44_solver.md R256). -/
def State.afterComplete (s : State) : State :=
  ((s.respPush (tryResponse true)).doutPush s.answer).closeSession.markSolved

section Terminators

variable {s : State}

theorem exec_planComplete (hc : s.core = .exec .planning) :
    exec .planComplete s = .next s.afterComplete :=
  inSession_open hc _

theorem exec_planEnd (hc : s.core = .exec .planning) :
    exec .planEnd s = .next s.answerAbsent.closeSession :=
  inSession_open hc _

theorem State.onlyPortNow_afterComplete (s : State) :
    s.OnlyPortNow s.afterComplete { s.here with
      doutq := s.here.doutq ++ s.answer
      respq := s.here.respq ++ [0x3300000000000001] } := by
  have hport (p : Nat) : s.afterComplete.port p =
    ((s.respPush (tryResponse true)).doutPush s.answer).port p := rfl
  rw [← tryResponse_present]
  exact ⟨by simp [hport], fun p hp => by simp [hport, hp.symm]⟩

theorem State.onlyPortNow_planEnd (s : State) :
    s.OnlyPortNow s.answerAbsent.closeSession
      { s.here with respq := s.here.respq ++ [0x3300000000000000] } :=
  tryResponse_absent ▸ s.onlyPortNow_setPort _

end Terminators

/-- Settles O55. -/
theorem terminatorsEndTheSession : Obligations.TerminatorsEndTheSession := fun s hc =>
  ⟨⟨_, exec_planComplete hc, s.onlyPortNow_afterComplete, fun _ => rfl, rfl⟩,
    ⟨_, exec_planEnd hc, s.onlyPortNow_planEnd, fun _ => rfl, rfl⟩⟩

/-! ### One token of a session -/

/-- SOL.TRY waits in its session for the next token (20_memory.md R98). -/
structure State.AwaitsToken (s : State) : Prop where
  planning : s.core = .exec .planning
  noToken : s.planIn = none

section Tokens

variable {s : State} {w : Word64}

theorem State.AwaitsToken.supplyToken_eq (h : s.AwaitsToken) (w : Word64) :
    s.supplyToken w = { s with planIn := some w } :=
  if_pos ⟨h.planning, h.noToken⟩

theorem State.AwaitsToken.core_supplyToken (h : s.AwaitsToken) (w : Word64) :
    (s.supplyToken w).core = .exec .planning := by
  rw [h.supplyToken_eq]
  exact h.planning

theorem State.AwaitsToken.planIn_supplyToken (h : s.AwaitsToken) (w : Word64) :
    (s.supplyToken w).planIn = some w := by
  rw [h.supplyToken_eq]

/-- Reading the token leaves the session as it was before the token came. -/
theorem State.AwaitsToken.readToken_eq (h : s.AwaitsToken) (w : Word64) :
    ({ s.supplyToken w with planIn := none } : State) = s := by
  rw [h.supplyToken_eq, ← h.noToken]

theorem State.AwaitsToken.coreTurn_token (h : s.AwaitsToken) {i : Instr}
    (hi : decodePlan w = some i) (p : Nat) : coreTurn p (s.supplyToken w) = exec i s := by
  have hrun : fetch p (s.supplyToken w) = .run i s := by
    rw [fetch_planning (h.core_supplyToken w), fetchToken_token (h.planIn_supplyToken w) hi,
      h.readToken_eq]
  exact coreTurn_of_run hrun

/-- A malformed token is a fault whose FAULT_INFO is its ordinal (30_encoding.md R119). -/
theorem State.AwaitsToken.faultsWith_malformed (h : s.AwaitsToken) (hw : decodePlan w = none) (p : Nat) :
    s.FaultsWith (coreTurn p (s.supplyToken w)) 0x0C s.plan.k.toNat := by
  have hanswered : fetch p (s.supplyToken w) = .answered (s.raise ⟨.plan, s.plan.k.toNat⟩) := by
    rw [fetch_planning (h.core_supplyToken w), fetchToken_malformed (h.planIn_supplyToken w) hw,
      h.supplyToken_eq]
    rfl
  exact ⟨_, coreTurn_of_answered hanswered, s.raise_onlyFaulted ⟨.plan, s.plan.k.toNat⟩⟩

end Tokens

/-! ### The steps of a plan -/

theorem RowStep.decodePlan_token (r : RowStep) : decodePlan (encode r.token) = some r.token := by
  cases r with
  | swap a b | xor a b =>
    exact decodePlan_eq_some_iff.2
      ⟨by simp [RowStep.token, Instr.wellFormed, fits_toNat], rfl, rfl⟩

theorem RowStep.exec_token {s : State} (hc : s.core = .exec .planning) (r : RowStep) :
    exec r.token s = .next (s.afterToken (RowStep.apply s.sol.rows r)) := by
  cases r with
  | swap a b => exact exec_planSwap hc _ _
  | xor a b => exact exec_planXor hc _ _

/-- The session after some steps of its plan: they are applied to the rows and counted
(44_solver.md R253). -/
def State.afterSteps (s : State) (steps : List RowStep) : State :=
  { s.setRows (steps.foldl RowStep.apply s.sol.rows) with
    plan := { s.plan with k := s.plan.k + BitVec.ofNat 32 steps.length } }

section Steps

variable {s t : State}

theorem State.afterSteps_nil (s : State) : s.afterSteps [] = s := by
  simp [State.afterSteps, State.setRows]

theorem State.afterSteps_cons (s : State) (r : RowStep) (steps : List RowStep) :
    s.afterSteps (r :: steps) = (s.afterToken (RowStep.apply s.sol.rows r)).afterSteps steps := by
  have hk : s.plan.k + BitVec.ofNat 32 (steps.length + 1) =
      s.plan.k + 1 + BitVec.ofNat 32 steps.length := by
    rw [Nat.add_comm, BitVec.ofNat_add, BitVec.add_assoc]
    rfl
  simp only [State.afterSteps, List.length_cons, hk]
  rfl

theorem State.AwaitsToken.afterToken (h : s.AwaitsToken) (rows : List Slice) :
    (s.afterToken rows).AwaitsToken := ⟨h.planning, h.noToken⟩

theorem State.AwaitsToken.afterSteps (h : s.AwaitsToken) (steps : List RowStep) :
    (s.afterSteps steps).AwaitsToken := ⟨h.planning, h.noToken⟩

theorem State.AwaitsToken.runTokens_steps (h : s.AwaitsToken) (steps : List RowStep) :
    runTokens (steps.map (encode ·.token)) s = .next (s.afterSteps steps) := by
  induction steps generalizing s with
  | nil => rw [State.afterSteps_nil]; rfl
  | cons r steps ih =>
    rw [State.afterSteps_cons]
    exact runTokens_cons_next.2 ⟨_,
      (h.coreTurn_token r.decodePlan_token _).trans (r.exec_token h.planning), ih (h.afterToken _)⟩

/-- A plan ends as its last token does after its steps. -/
theorem State.AwaitsToken.runTokens_plan (h : s.AwaitsToken) {plan : Plan}
    (hlast : coreTurn s.cmdPort ((s.afterSteps plan.steps).supplyToken plan.last.word) = .next t) :
    runTokens plan.words s = .next t :=
  runTokens_append_next.2 ⟨_, h.runTokens_steps plan.steps, runTokens_cons_next.2 ⟨t, hlast, rfl⟩⟩

end Steps

/-! ### A whole SOL.TRY -/

/-- The session of a SOL.TRY after the steps of the plan. -/
def State.sessionAfter (s : State) (plan : Plan) : State := s.openSession.afterSteps plan.steps

section Sessions

variable {s t : State} {elim : Elim} {plan : Plan}

theorem State.awaitsToken_sessionAfter (s : State) (plan : Plan) : (s.sessionAfter plan).AwaitsToken :=
  State.AwaitsToken.afterSteps ⟨rfl, rfl⟩ plan.steps

theorem State.sessionAfter_eq (s : State) (plan : Plan) :
    s.sessionAfter plan = { s with
      sol := { s.sol with rows := plan.apply s.sol.rows }
      plan := ⟨true, BitVec.ofNat 32 plan.steps.length⟩
      planIn := none
      core := .exec .planning } := by
  have hk : (0 : Word32) + BitVec.ofNat 32 plan.steps.length = BitVec.ofNat 32 plan.steps.length :=
    BitVec.zero_add _
  simp only [State.sessionAfter, State.afterSteps, State.openSession_plan, hk]
  rfl

/-- A SOL.TRY that opens a session ends as the last token of its plan does. -/
theorem State.tryWith_of_session (hc : s.core = .idle) (hr : s.sol.ready = true)
    (hrows : s.sol.n.toNat ≤ s.solRows) (hplan : elim s.sol.n.toNat (s.sol.rows.map Slice.coef) = plan)
    (hlast : coreTurn s.cmdPort ((s.sessionAfter plan).supplyToken plan.last.word) = .next t) :
    s.tryWith elim = .next t := by
  have hopen : s.openSession.AwaitsToken := ⟨rfl, rfl⟩
  simp only [State.tryWith, exec_solTry_open hc hr hrows, State.presented_openSession, hplan]
  exact hopen.runTokens_plan hlast

end Sessions

/-- Settles O57: after the steps, the session is as `State.sessionAfter_eq` says, and each kind of last
token ends it in its way. -/
theorem sessionsEndAsTheirPlansDo : Obligations.SessionsEndAsTheirPlansDo := by
  intro elim plan s hc hr hrows hplan
  have ends {t : State} := State.tryWith_of_session (t := t) hc hr hrows hplan
  have hwait := s.awaitsToken_sessionAfter plan
  have hu := s.sessionAfter_eq plan
  generalize s.sessionAfter plan = u at ends hwait hu
  cases hlast : plan.last with rw [hlast] at ends
  | complete =>
    obtain ⟨⟨t, hexec, hport, hmem, hstate⟩, _⟩ := terminatorsEndTheSession u hwait.planning
    have ht := ends ((hwait.coreTurn_token rfl _).trans hexec)
    subst hu
    exact ⟨t, ht, hmem, fun _ => ⟨hport, hstate.trans (by simp only [hc])⟩, nofun, nofun⟩
  | absent =>
    obtain ⟨_, t, hexec, hport, hmem, hstate⟩ := terminatorsEndTheSession u hwait.planning
    have ht := ends ((hwait.coreTurn_token rfl _).trans hexec)
    subst hu
    exact ⟨t, ht, hmem, nofun, fun _ => ⟨hport, hstate.trans (by simp only [hc])⟩, nofun⟩
  | malformed bad =>
    obtain ⟨t, hturn, hstate, hport⟩ := hwait.faultsWith_malformed bad.property s.cmdPort
    have ht := ends hturn
    have hmem : u.SameMemory t := fun a => by rw [hstate]
    rw [BitVec.ofNat_toNat, BitVec.setWidth_eq] at hstate
    subst hu
    exact ⟨t, ht, hmem, nofun, nofun, fun _ _ => ⟨hport, hstate⟩⟩

end Sys2Proof.Machine

/-!
SUPPORT. Result correctness (44_solver.md R260): valid rows stay valid through a plan, a valid row whose
coefficients are a unit vector holds its segment, and the segments one after another are the payload;
then O58.
-/

namespace Sys2Proof.Machine

/-- The segments one after another are the payload, filled up with zeros. -/
theorem flatMap_segmentOf (payload : List Byte) (sz n : Nat) :
    (List.range n).flatMap (segmentOf payload sz) =
      (List.range (n * sz)).map fun a => payload.getD a 0 := by
  induction n with
  | zero => simp
  | succ n ih =>
    rw [List.range_succ, List.flatMap_append, ih, Nat.succ_mul, List.range_add, List.map_append,
      List.map_map]
    simp [segmentOf, Function.comp_def]

/-- As many segments as it takes, cut to its length, are the payload. -/
theorem take_segments {payload : List Byte} {sz : Nat} (hsz : 1 ≤ sz) :
    ((List.range (ceilDiv payload.length sz)).flatMap (segmentOf payload sz)).take payload.length =
      payload := by
  rw [flatMap_segmentOf, ← List.map_take, List.take_range,
    Nat.min_eq_left (le_ceilDiv_mul hsz payload.length)]
  exact map_range_eq 0 rfl fun _ _ => rfl

section Rows

variable {payload : List Byte} {sz n : Nat} {rows : List Slice}

/-- The steps of a plan keep every row valid (44_solver.md R259). -/
theorem Plan.apply_validFor (plan : Plan) (h : ∀ x ∈ rows, x.ValidFor payload sz) :
    ∀ x ∈ plan.apply rows, x.ValidFor payload sz := by
  refine List.foldlRecOn (motive := fun rows => ∀ x ∈ rows, x.ValidFor payload sz) plan.steps
    RowStep.apply h fun rows h r _ => ?_
  cases r with
  | swap a b => exact forall_applySwap h _ _
  | xor a b => exact forall_applyXor (fun _ _ => Slice.ValidFor.xor) h _ _

theorem Slice.ValidFor.data_eq_segmentOf {x : Slice} {i : Nat} (h : x.ValidFor payload sz) (hi : i < n)
    (hx : x.coef = unitVector n i) : x.data = segmentOf payload sz i := by
  obtain ⟨_, _, hdata⟩ := h
  rw [hdata, hx, combine_unitVector payload sz hi]

/-- Rows reduced to unit vectors hold the payload. -/
theorem flatMap_data_of_unit (hrows : n ≤ rows.length) (hvalid : ∀ x ∈ rows, x.ValidFor payload sz)
    (hunit : ∀ i < n, (rowAt rows i).coef = unitVector n i) :
    (rows.take n).flatMap Slice.data = (List.range n).flatMap (segmentOf payload sz) := by
  have htake : (List.range n).map (rowAt rows) = rows.take n :=
    map_range_eq _ (List.length_take_of_le hrows) fun i hi => (getD_take_of_lt rows _ hi).symm
  rw [← htake, List.flatMap_map]
  refine List.flatMap_congr fun i hi => ?_
  have hi : i < n := List.mem_range.1 hi
  exact (hvalid _ (rowAt_mem (by omega))).data_eq_segmentOf hi (hunit i hi)

end Rows

/-- Settles O58: O57 says which bytes COMPLETE answers, and they are the segments in order. -/
theorem correctCollaboratorReconstructsThePayload :
    Obligations.CorrectCollaboratorReconstructsThePayload := by
  intro elim payload s hc hr hsz hn hrows hlen hvalid ⟨hunit, hrank⟩ hcomplete
  have hlast := hcomplete.elim id hrank
  have hunit := hunit hlast
  obtain ⟨t, ht, _, hend, _⟩ := sessionsEndAsTheirPlansDo elim _ s hc hr hrows rfl
  obtain ⟨hport, hstate⟩ := hend hlast
  refine ⟨t, ht, (congrArg State.core hstate).trans hc, congrArg (·.sol.solved) hstate,
    congrArg (·.sol.lastTryPresent) hstate, ?_⟩
  rwa [flatMap_data_of_unit (by rwa [Plan.apply_length]) (Plan.apply_validFor _ hvalid) hunit, hn, ← hlen,
    take_segments hsz] at hport

end Sys2Proof.Machine

/-!
SUPPORT. CSRR and the generator commands, by their checks, and the three control commands, by the one
response word they may push (45_control.md R290 to R292); then O25, O27.
-/

namespace Sys2Proof.Machine

/-! ### Which check of CSRR or a generator command fails first -/

section Checks

variable {s : State}

theorem checkCsrr_unmapped {c : Nat} (h : s.csr c = none) : checkCsrr c s = some ⟨.csr, c⟩ := by
  simp [checkCsrr, firstFailing_cons, h]

theorem checkPayLoad_badConfig {len : Nat} (h : s.params.pmax < len) :
    checkPayLoad len s = some ⟨.badConfig, 0⟩ := by
  simp [checkPayLoad, firstFailing_cons, h]

theorem checkGenInit_noPayload {sz : Nat} (h : s.payValid = false) :
    checkGenInit sz s = some ⟨.noPayload, 0⟩ := by
  simp [checkGenInit, firstFailing_cons, h]

theorem checkGenInit_badConfig {sz : Nat} (hv : s.payValid = true)
    (h : sz = 0 ∨ s.params.smax < sz ∨ s.params.nmax < ceilDiv s.payloadLen.toNat sz) :
    checkGenInit sz s = some ⟨.badConfig, 0⟩ := by
  by_cases hsz : sz = 0 ∨ s.params.smax < sz
  · simp [checkGenInit, firstFailing_cons, hv, hsz]
  · have hn : s.params.nmax < ceilDiv s.payloadLen.toNat sz := by tauto
    simp [checkGenInit, firstFailing_cons, hv, hn]

theorem checkGenNext_uninit (h : s.gen.ready = false) : checkGenNext s = some ⟨.genUninit, 0⟩ := by
  simp [checkGenNext, firstFailing_cons, h]

end Checks

/-! ### Response words and their push (30_encoding.md R120, 00_scope.md R11) -/

/-- A response word has its tag in the top byte and its value in the low half. -/
theorem response_eq (tag : BitVec 8) (v : Word32) :
    response tag v = tag.setWidth 64 <<< 56 ||| v.setWidth 64 := by
  refine BitVec.eq_of_getLsbD_eq fun i hi => ?_
  simp only [response, BitVec.getLsbD_append, BitVec.getLsbD_or, BitVec.getLsbD_shiftLeft,
    BitVec.getLsbD_setWidth, BitVec.getLsbD_zero, hi]
  by_cases hvalue : i < 32
  · simp [hvalue, show i < 56 by omega]
  · have hv : v.getLsbD i = false := BitVec.getLsbD_of_ge v i (by omega)
    by_cases hzeros : i < 56
    · simp [hvalue, hzeros, hv, show i - 32 < 24 by omega]
    · simp [hvalue, hzeros, hv, show ¬i - 32 < 24 by omega, show i - 56 < 64 by omega, Nat.sub_sub]

/-- RespPush answers the port of the command and does nothing else. -/
theorem State.onlyAnswered_respPush (s : State) (w : Word64) : s.OnlyAnswered (s.respPush w) w :=
  ⟨rfl, s.onlyPortNow_setPort _⟩

/-! ### The states the control commands leave -/

section Effects

variable {s : State}

theorem exec_nop (hc : s.core = .idle) : exec .nop s = .next s :=
  runCommand_effect hc _

theorem exec_sync (hc : s.core = .idle) : exec .sync s = .next (s.respPush (response 0x01 0)) :=
  runCommand_effect hc _

/-- A mapped CSR is read in HALTED as in IDLE (60_exceptions.md R305). -/
theorem exec_csrr {c : Nat} {v : Word32} (hc : s.core = .idle ∨ s.core = .halted)
    (hv : s.csr c = some v) : exec (.csrr c) s = .next (s.respPush (response 0x02 v)) := by
  simp only [exec, execCsrr, hv]
  obtain hc | hc := hc <;> simp only [hc]

end Effects

/-! ### The statements -/

/-- Settles O25: each clause is the first failing check of its command. -/
theorem generatorCommandsTrapInOrder : Obligations.GeneratorCommandsTrapInOrder := by
  intro s hc
  have trap {i : Instr} {u : Trap} (hk : check i s = some u) := State.faultsWith_of_check hc hk
  exact ⟨fun c h => trap (i := .csrr c) (checkCsrr_unmapped h),
    fun len h => trap (i := .payLoad len) (checkPayLoad_badConfig h),
    fun sz sys h => trap (i := .genInit sz sys) (checkGenInit_noPayload h),
    fun sz sys hv h => trap (i := .genInit sz sys) (checkGenInit_badConfig hv h),
    fun rd h => trap (i := .genNext rd) (checkGenNext_uninit h)⟩

/-- Settles O27: a control command changes nothing but by the response word it pushes. -/
theorem controlCommandsComplete : Obligations.ControlCommandsComplete := by
  refine ⟨fun s hc => ⟨exec_nop hc, _, exec_sync hc, s.onlyAnswered_respPush _⟩,
    fun s c v hc hv => ⟨_, exec_csrr hc hv, ?_⟩⟩
  have hword : response 0x02 v = 0x0200000000000000 ||| v.setWidth 64 := response_eq 0x02 v
  exact hword ▸ s.onlyAnswered_respPush _

end Sys2Proof.Machine

/-!
SUPPORT. HALTED (60_exceptions.md R305, R306): what every command and every refused word is answered
there, and that no move but reset changes more than queues and latches; then O22, O23, O17.
-/

namespace Sys2Proof.Machine

section Halted

variable {s t : State} {i : Instr} {e : Event} {p : Nat} {w : Word64}

/-! ### What HALTED answers (60_exceptions.md R305) -/

/-- A halted core answers a command with the ERR word of the latched cause; only CSRR of a mapped number
is executed. -/
theorem exec_halted (hc : s.core = .halted) (hi : i.isPlan = false)
    (hcsr : ∀ c, i = .csrr c → s.csr c = none) : exec i s = .next s.answerHalted := by
  have answer := runCommand_halted hc (check i s)
  cases i with
  | planEnd | planSwap | planXor | planComplete => cases hi
  | csrr c => exact (execCsrr_unmapped (hcsr c rfl)).trans (answer _)
  | genNext rd => exact (execGenNext_start (by simp [hc])).trans (answer _)
  | _ => exact answer _

theorem State.rejectWord_halted (hc : s.core = .halted) (c : FaultCode) :
    s.rejectWord c = s.answerHalted := by
  simp [State.rejectWord, hc]

/-- A word that is no command, taken by a halted core, is only answered. -/
theorem coreTurn_halted_refused (hc : s.core = .halted) (hw : s.readyCommand p = some w)
    (hbad : decodeCommand w = .illegal ∨ decodeCommand w = .reserved) :
    coreTurn p s = .next (s.take p w).answerHalted := by
  have hreject := State.rejectWord_halted (s := s.take p w) hc
  apply coreTurn_of_answered
  rw [fetch_ready hw]
  obtain hbad | hbad := hbad <;> simp [fetchCommand, hbad, hreject]

theorem State.onlyAnswered_answerHalted (s : State) :
    s.OnlyAnswered s.answerHalted (0xFF00000000000000 ||| s.fault.cause.setWidth 64) :=
  errResponse_eq s.fault.cause ▸ s.onlyAnswered_respPush _

/-! ### What HALTED leaves unchanged (60_exceptions.md R306) -/

/-- An instruction executed in HALTED only pushes an answer. -/
theorem Executes.halted_frame (h : Executes s i t) (hc : s.core = .halted) :
    t = { s with ports := t.ports } := by
  cases h with
  | halted | csrr => rfl
  | genHold hd | genEmit hd | genDiscard hd => simp [State.AtDraw, hc] at hd
  | _ hother => simp [hc] at hother

/-- The turn of a halted core changes queues, and the latches by taking a command. -/
theorem coreTurn_halted_frame (hc : s.core = .halted) (h : coreTurn p s = .next t) :
    t = { s with ports := t.ports, cmdPort := t.cmdPort, cmdWord := t.cmdWord } := by
  obtain ⟨_, rfl⟩ | ⟨i, u, hf, he⟩ | hf := coreTurn_next h
  · rfl
  · obtain ⟨w, _, _, rfl⟩ | ⟨hd, _⟩ | ⟨hd, _⟩ := fetch_run hf
    · rw [(executes_of_exec he).halted_frame hc]
      rfl
    all_goals simp [hc] at hd
  · obtain ⟨w, c, _, _, rfl⟩ | ⟨hd, _⟩ | ⟨hd, _⟩ := fetch_answered hf
    · rw [State.rejectWord_halted (s := s.take p w) hc]
      rfl
    all_goals simp [hc] at hd

/-- No draw and no plan session is open in HALTED, so the collaborators supply nothing. -/
theorem move_halted_frame (hc : s.core = .halted) (he : e ≠ .rst) (h : move e s = .next t) :
    t = { s with ports := t.ports, cmdPort := t.cmdPort, cmdWord := t.cmdWord } := by
  cases e with
  | core p => exact coreTurn_halted_frame hc h
  | rst => exact absurd rfl he
  | pushCmd p w => cases h; rw [State.pushCmd_eq]; split <;> rfl
  | pushByte p b => cases h; rw [State.pushByte_eq]; split <;> rfl
  | popByte p => cases h; rfl
  | popResp p => cases h; rfl
  | rng b => cases h; rw [State.supplyByte_eq, if_neg (by simp [hc])]
  | plan w => cases h; rw [State.supplyToken, if_neg (by simp [hc])]

end Halted

/-! ### The statements -/

/-- Settles O22: the fault entry is that of the first failing check, and `fault_o` repeats FAULT. -/
theorem faultingCommandsDoNothingElse : Obligations.FaultingCommandsDoNothingElse := by
  refine ⟨fun i s u hc hk => ⟨State.faultsWith_of_check hc hk, fun t ht => ?_⟩, by decide⟩
  obtain rfl : s.raise u = t := by simpa [exec_of_check_eq_some hc hk] using ht
  rfl

/-- Settles O23. -/
theorem haltedAnswersErr : Obligations.HaltedAnswersErr := by
  refine ⟨fun i s hc hi hcsr => ⟨_, exec_halted hc hi hcsr, s.onlyAnswered_answerHalted⟩,
    fun s u p w hm hc hw hbad => ⟨(u.take p w).answerHalted, ?_, (u.take p w).onlyAnswered_answerHalted⟩⟩
  exact (step_of_nextMove hm).trans (coreTurn_halted_refused hc hw hbad)

/-- Settles O17. -/
theorem haltedEndsOnlyByReset : Obligations.HaltedEndsOnlyByReset := fun _ _ _ _ hm hc he ht =>
  move_halted_frame hc he (step_of_nextMove hm ▸ ht)

end Sys2Proof.Machine

/-!
SUPPORT. The parameters of the block are in their ranges (00_scope.md R7), and what the state after
reset reads (70_reset_and_hazards.md R341); then the statements about reset: O11, O10, O12.
-/

namespace Sys2Proof

/-! ### The ranges of the parameters -/

/-- Whatever the raw choice, the parameters of a block meet 00_scope.md R7. -/
theorem Params.clamp_ok (q : Params) : q.clamp.Ok := by
  have range (a : Nat) {b : Nat} (hb : 0 < b) : 1 ≤ a % b + 1 ∧ a % b + 1 ≤ b :=
    ⟨Nat.le_add_left 1 _, Nat.mod_lt a hb⟩
  have hw : 8 ≤ 8 * (q.w + 1) ∧ 8 * (q.w + 1) % 8 = 0 := by omega
  exact ⟨range _ (by decide), range _ (by decide), range _ (by decide), range _ (by decide),
    range _ (by decide), hw, Nat.le_add_left 1 _, Nat.le_add_left 1 _, Nat.le_add_left 1 _,
    Nat.le_add_left 1 _⟩

end Sys2Proof

namespace Sys2Proof.Machine

/-! ### What the state after reset reads -/

@[simp] theorem State.reg_reset (k : SIdx) : State.reset.reg k = SReg.reset :=
  Vector.getElem_replicate k.isLt

@[simp] theorem State.port_reset (p : Nat) : State.reset.port p = Port.empty := rfl

/-- Every CSR but ID and the parameters reads 0 (10_state.md R40): each is a view of fields with closed
reset values, so each is evaluated. -/
theorem State.csr_reset_eq_zero :
    ∀ c ∈ [0x001, 0x002, 0x003, 0x004, 0x005, 0x006, 0x007, 0x010, 0x011, 0x012, 0x013, 0x014, 0x020,
      0x021, 0x022, 0x023], State.reset.csr c = some 0 := by
  decide

/-! ### The statements -/

/-- Settles O11: the move taken is `rst`, whose effect `State.hardReset` is the state written out. -/
theorem resetInputRestoresTheResetValues : Obligations.ResetInputRestoresTheResetValues :=
  fun _ _ hm => step_of_nextMove hm

/-- Settles O10: the registers and the ports one by one, the CSRs by their map. -/
theorem resetLeavesTheStatedValues : Obligations.ResetLeavesTheStatedValues :=
  ⟨fun k => congrArg SReg.valid (State.reg_reset k), rfl, rfl, rfl, rfl, rfl, rfl, State.port_reset, rfl,
    rfl, rfl, State.csr_reset_eq_zero, rfl, rfl, rfl, rfl, rfl⟩

/-- Settles O12: nothing is valid, ready, listed or in progress, so every clause but the parameters'
speaks of nothing or of zeros. -/
theorem resetSatisfiesTheInvariant : Obligations.ResetSatisfiesTheInvariant where
  params := Config.rawParams.clamp_ok
  regs k hv := by simp [SReg.reset] at hv
  payload := ⟨reset_memory_wf, List.forall_mem_nil _, fun a ha => absurd ha (Nat.not_lt_zero a),
    Nat.zero_le _, fun _ => rfl⟩
  gen := ⟨Nat.zero_le _, Nat.zero_le _, Nat.le_refl 0, nofun⟩
  sol := ⟨Nat.zero_le _, Nat.zero_le _, Nat.zero_le _, List.forall_mem_nil _, nofun,
    fun _ => ⟨rfl, rfl, rfl, rfl⟩⟩
  queues := ⟨⟨List.Pairwise.nil, List.forall_mem_nil _⟩, List.forall_mem_nil _⟩
  session := ⟨⟨nofun, nofun⟩, fun h => absurd rfl h, nofun⟩
  draw := ⟨nofun, fun _ => rfl⟩
  fault := ⟨⟨nofun, nofun⟩, fun _ => rfl, nofun⟩

end Sys2Proof.Machine
